-- ==== Sys2Proof/Word.lean ====
section
/-! DEFINITION. The plain numbers of the SC-24: bytes, line positions, and the numbered things of the
Conventions (00_scope.md, "Numbering"), counted here from 0. -/

namespace Sys2Proof

/-- One byte of a console frame, a stand-bus frame or a scan slot. -/
abbrev Byte := BitVec 8

/-- A line position: 32 bits counted in web steps, wrapping modulo 2^32 (00_scope.md, "Line position"). -/
abbrev Pos := BitVec 32

/-- Press lines 1 to 4, counted from 0. -/
abbrev LineId := Fin 4

/-- Stands 1 to 8, counted from 0. -/
abbrev StandId := Fin 8

/-- Order-table rows 0 to 15. -/
abbrev RowId := Fin 16

/-- Reel-table slots 0 to 63. -/
abbrev SlotId := Fin 64

end Sys2Proof
end

