-- ==== Sys2Proof/Syntax.lean ====
section
/-! DEFINITION. The commands of the block: one constructor per row of spec/opcode_table.json, with the
operands that the row's rule gives the event. -/

namespace Sys2Proof

/-- One of the three arms of a stand. -/
inductive Arm
  | a
  | b
  | c
  deriving DecidableEq, Repr

/-- A position of an arm on the spider. -/
inductive SpiderPos
  | load
  | splice
  | run
  deriving DecidableEq, Repr

/-- The eight request kinds of the stand bus (R143 to R145). -/
inductive RequestKind
  | index
  | verify
  | retract
  | accel
  | coast
  | brake
  | gauge
  | status
  deriving DecidableEq, Repr

/-- The reasons a stand may give with a REFUSE (R142). -/
inductive StandReason
  | guardOpen
  | driveFault
  | armEmpty
  deriving DecidableEq, Repr

/-- What a STATUS response says of one arm (R153): its spider position and its loaded flag. -/
structure ArmStatus where
  position : SpiderPos
  loaded : Bool
  deriving DecidableEq, Repr

/-- The two split reads of the stand bus (R144). -/
inductive ReadKind
  | gauge (arm : Arm)
  | status
  deriving DecidableEq, Repr

/-- A RESPONSE on a grant (R144, R153): a gauge diameter in mm, or the three arms of a STATUS. -/
inductive ReadResponse
  | gauge (arm : Arm) (diameter : BitVec 16)
  | status (a b c : ArmStatus)
  deriving DecidableEq, Repr

/-- The two direct outputs of a stand (R12). -/
inductive OutputLine
  | paste
  | knife
  deriving DecidableEq, Repr

/-- The commands, in the order of spec/opcode_table.json. A console command carries the unit address and
the payload bytes of its frame (R178, R181); its items are decoded by its meaning. -/
inductive Instr
  /-- The RESET pin is asserted while ADDR0 to ADDR4 read `address` (R190). -/
  | powerOnReset (address : BitVec 5)
  /-- The RESET pin is released (R134). -/
  | resetRelease
  | encoderPulse (line : LineId)
  | speedWindowEnd (line : LineId)
  | commitPointReport (row : RowId)
  | latestCommitPointReport (row : RowId)
  | matchDeadlineReport (stand : StandId)
  | pastePositionReport (stand : StandId)
  | knifePositionReport (stand : StandId)
  | staleLimitReached (stand : StandId) (arm : Arm)
  | pulseEnd (stand : StandId) (output : OutputLine)
  | revolutionMark (stand : StandId) (arm : Arm)
  | tapeMark (stand : StandId)
  | scanCall
  | quietTimer
  /-- The END slot of a scan: the eight stand slots as read, stand 1 first (R133, R153). -/
  | scanEnd (slots : Vector Byte 8)
  | stopHoldTimerEnd (stand : StandId)
  /-- An ACCEPT frame on the pair: its stand, and the kind and arm it echoes (R142). -/
  | accept (stand : StandId) (kind : RequestKind) (arm : Option Arm)
  | refuse (stand : StandId) (kind : RequestKind) (arm : Option Arm) (reason : StandReason)
  | replyTimeEnd
  | grantLapse
  | readLimit (stand : StandId) (read : ReadKind)
  | indexTimeout (stand : StandId)
  | verifyTimeout (stand : StandId)
  | cutWaitEnd (stand : StandId)
  | retractTimeout (stand : StandId)
  | response (stand : StandId) (body : ReadResponse)
  /-- ATTENTION INDEX DONE with the reported positions of arms A, B and C (R153, R161). -/
  | indexDone (stand : StandId) (a b c : SpiderPos)
  | verifyDone (stand : StandId) (arm : Arm)
  | armHome (stand : StandId)
  | cutConfirmed (stand : StandId)
  | armLoaded (stand : StandId) (arm : Arm)
  | armEmptied (stand : StandId) (arm : Arm)
  /-- QUERY ARM; the arm byte 0 names no arm (R148). -/
  | queryArm (stand : StandId) (arm : Option Arm)
  /-- A console frame that the receiver discards (R178), as the bytes it collected. -/
  | consoleFrameDiscarded (bytes : List Byte)
  | answerFrameSeen (address code : Byte) (payload : List Byte)
  | unknownCode (address code : Byte) (payload : List Byte)
  | enterReel (address : Byte) (payload : List Byte)
  | mountReel (address : Byte) (payload : List Byte)
  | prepared (address : Byte) (payload : List Byte)
  | amendReel (address : Byte) (payload : List Byte)
  | retireReel (address : Byte) (payload : List Byte)
  | readReel (address : Byte) (payload : List Byte)
  | readArm (address : Byte) (payload : List Byte)
  | listReels (address : Byte) (payload : List Byte)
  | threadReel (address : Byte) (payload : List Byte)
  | stopReel (address : Byte) (payload : List Byte)
  | orderSplice (address : Byte) (payload : List Byte)
  | confirm (address : Byte) (payload : List Byte)
  | cancelOrder (address : Byte) (payload : List Byte)
  | releaseOrder (address : Byte) (payload : List Byte)
  | readOrder (address : Byte) (payload : List Byte)
  | indexStand (address : Byte) (payload : List Byte)
  | clearStand (address : Byte) (payload : List Byte)
  | readStand (address : Byte) (payload : List Byte)
  | readLine (address : Byte) (payload : List Byte)
  | setParameter (address : Byte) (payload : List Byte)
  | readParameter (address : Byte) (payload : List Byte)
  | parameterRun (address : Byte) (payload : List Byte)
  | data (address : Byte) (payload : List Byte)
  | readChanges (address : Byte) (payload : List Byte)
  | ackChanges (address : Byte) (payload : List Byte)
  | scanMode (address : Byte) (payload : List Byte)
  | restart (address : Byte) (payload : List Byte)
  | answerSent
  | unroutedStandMessage (stand : StandId)
  deriving DecidableEq, Repr

end Sys2Proof
end

