-- ==== Sys2Proof/Decode.lean ====
section
/-! DEFINITION. The command that a table word spells. No row of spec/opcode_table.json gives bits (every
row's "fields" is empty), so no word spells a command; the frames that carry commands are read in
Sys2Proof/Machine/Frames.lean. -/

namespace Sys2Proof

/-- The command a word of `nbits` bits spells by the bits of the opcode table: none, since no row gives any. -/
def decodeTableWord (_nbits _w : Nat) : Option Instr := none

end Sys2Proof
end

