-- ==== Sys2Proof/Config.lean ====
section
/-! DEFINITION. The free values of the model: constants without a body, of which nothing can be proved. -/

namespace Sys2Proof.Config

/-- What a rule that reads the outside circumference of an order's new reel finds when the record holds
none, or no longer exists. R27, R72 and R96 keep this from arising in a run (a READY record holds one),
so the spec states no value: a free value (assumption log 21). The argument is the reel number. -/
opaque absentOutside : Nat → Nat

end Sys2Proof.Config
end

