-- ==== Sys2Proof/Machine/Params.lean ====
section
/-! DEFINITION. The figures the manual fixes: the times of the timers, the limits of the tables, and the
parameter tables with their ranges and defaults (09_stand_and_line_settings.md). -/

namespace Sys2Proof.Machine

/-- A used parameter index: the ends of its range and its default (R171, R172). -/
structure ParamSpec where
  lo : Nat
  hi : Nat
  default : Nat
  deriving DecidableEq, Repr

/-- The stand parameters, index 0 to 13 (the Stand parameters table). -/
def standSpecs : Vector ParamSpec 14 :=
  #v[⟨1, 4, 1⟩, ⟨10, 200, 40⟩, ⟨5, 200, 15⟩, ⟨2000, 30000, 12000⟩, ⟨20, 400, 120⟩,
     ⟨0, 3599, 1800⟩, ⟨0, 20000, 2500⟩, ⟨1, 20, 5⟩, ⟨0, 3, 1⟩, ⟨0, 1, 0⟩,
     ⟨40, 200, 75⟩, ⟨3000, 6000, 3770⟩, ⟨10, 200, 40⟩, ⟨0, 1, 1⟩]

/-- The line parameters, index 0 to 3 (the Line parameters table). -/
def lineSpecs : Vector ParamSpec 4 :=
  #v[⟨0, 500, 30⟩, ⟨1000, 50000, 3000⟩, ⟨10000, 150000, 40000⟩, ⟨0, 1, 1⟩]

/-- The default of every stand parameter (R171). -/
def standDefaults : Vector Nat 14 :=
  #v[1, 40, 15, 12000, 120, 1800, 2500, 5, 1, 0, 75, 3770, 40, 1]

/-- The default of every line parameter (R171). -/
def lineDefaults : Vector Nat 4 := #v[30, 3000, 40000, 1]

/-- Web steps in a metre (00_scope.md, "Web step"). -/
def stepsPerMetre : Nat := 10000

/-- The length of a speed window, in ms (R3). -/
def windowMs : Nat := 10

/-- The reply time of a request and the time of a grant, in ms (R142, R147). -/
def exchangeMs : Nat := 20

/-- The split-read limit (R144). -/
def readLimitMs : Nat := 2000

/-- The limit of an index record (R145). -/
def indexLimitMs : Nat := 25000

/-- The deadline of a verification run from its ACCEPT (R25). -/
def verifyMs : Nat := 15000

/-- The stop hold that locks a stand out (R164). -/
def stopHoldMs : Nat := 3000

/-- The cut wait from the knife (R121). -/
def cutWaitMs : Nat := 2000

/-- The retract wait from the knife (R121). -/
def retractWaitMs : Nat := 3000

/-- The quiet timer from the last END slot (R135). -/
def quietMs : Nat := 100

/-- The distance from a last mark to its stale limit, 2^30 web steps (R6). -/
def staleSteps : Nat := 1073741824

/-- The guard between the tape mark and the paste position (R118). -/
def pasteGuard : Nat := 200

/-- The largest line speed a counter shows (R3). -/
def maxSpeed : Nat := 200000

end Sys2Proof.Machine
end

