-- ==== Sys2Proof/Machine/State.lean ====
section
/-! DEFINITION. The state of the SC-24, block by block (00_scope.md, "Blocks"), and the state that
power-on reset leaves. A field that is "present only under a condition" is an Option. -/

namespace Sys2Proof.Machine

/-- One value for each arm of a stand. -/
structure PerArm (α : Type) where
  a : α
  b : α
  c : α
  deriving DecidableEq, Repr

/-- A line counter (R1, R3). `windowEnd` is the time at which the speed window now running ends. -/
structure LineCounter where
  position : Pos
  windowCount : Nat
  speed : Nat
  overspeed : Bool
  windowEnd : Nat
  deriving DecidableEq, Repr

/-- An arm context (R5, R6). The stale limit is held while the last mark position is. -/
structure ArmContext where
  lastMark : Option Pos
  lastInterval : Option Nat
  tapeCount : Nat
  staleLimit : Option Pos
  deriving DecidableEq, Repr

/-- The PASTE and KNIFE outputs of a stand: the pulse end time of an asserted output (R12). -/
structure Outputs where
  paste : Option Nat
  knife : Option Nat
  deriving DecidableEq, Repr

/-- The states of a reel record (02_the_reel_table.md, "Record states"). -/
inductive ReelState
  | staged
  | mounted
  | prepared
  | ready
  | committed
  | running
  | expired
  deriving DecidableEq, Repr

/-- The results of a verification (02_the_reel_table.md, "Record fields"). -/
inductive VerifyResult
  | untested
  | passed
  | noTape
  | doubleTape
  | shortTurn
  | timeout
  deriving DecidableEq, Repr

/-- A reel record (02_the_reel_table.md, "Record fields"). -/
structure ReelRecord where
  reel : Nat
  stand : StandId
  grade : Nat
  state : ReelState
  arm : Option Arm
  core : Nat
  outside : Option Nat
  caliper : Option Nat
  current : Option Nat
  remaining : Option Nat
  learned : Option Nat
  verify : VerifyResult
  runout : Bool
  clamped : Bool
  trackingFault : Bool
  tag : Option Nat
  deriving DecidableEq, Repr

/-- What a verification run holds once its VERIFY is accepted (R25). `marked` is the model's own: a
revolution mark of the run's arm has been taken since the ACCEPT (assumption log 29). -/
structure Turning where
  repeatMark : Bool
  marked : Bool
  count : Nat
  lastTwo : List Nat
  deadline : Nat
  deriving DecidableEq, Repr

/-- A verification run: WAITING while `turning` is absent, TURNING while it is present. A stand whose
context is IDLE has no run. -/
structure VerifyRun where
  reel : Nat
  arm : Arm
  turning : Option Turning
  deriving DecidableEq, Repr

/-- The tracker states but IDLE, which is the absence of a context (R45). -/
inductive TrackerState
  | warming
  | tracking
  | learned
  | hold
  | fault
  deriving DecidableEq, Repr

/-- The last accepted sample's mark: its position P and the remaining length R_mark there (R52). -/
structure SampleMark where
  position : Pos
  remaining : Nat
  deriving DecidableEq, Repr

/-- A tracker context in any state but IDLE (03_following_the_running_reel.md). -/
structure Tracker where
  state : TrackerState
  reel : Nat
  arm : Arm
  window : List Nat
  cPrev : Option Nat
  relaxed : Bool
  rejects : Nat
  candidate : Option Nat
  mark : Option SampleMark
  runoutHeld : Bool
  delta : Option Nat
  clampReported : Bool
  deriving DecidableEq, Repr

/-- The states of a non-EMPTY order row (04_splice_orders.md, "Order states"). -/
inductive OrderState
  | armed
  | held
  | accelerating
  | matched
  | pasting
  | closing
  | done
  | failed
  | dropped
  | cancelled
  deriving DecidableEq, Repr

/-- The reasons of the closes (04_splice_orders.md, "Closing an order"), in the order of their codes. -/
inductive OrderReason
  | accelRefused
  | accelTimeout
  | speedLow
  | matchLost
  | tapeNotFound
  | newReelRemoved
  | standFault
  | localStop
  | notConfirmed
  | console
  | reelStopped
  deriving DecidableEq, Repr

/-- The positions that placement gives an open order (R73). -/
structure Placement where
  ppref : Pos
  plate : Pos
  q : Pos
  deriving DecidableEq, Repr

/-- The settings frozen at commit (R78). -/
structure Frozen where
  tArm : Nat
  theta : Nat
  knifeDelay : Nat
  tolerance : Nat
  retryLimit : Nat
  pulseWidth : Nat
  deriving DecidableEq, Repr

/-- The fields an order has from its commit (R78, R108). -/
structure Commitment where
  position : Pos
  frozen : Frozen
  deadline : Pos
  retries : Nat
  deriving DecidableEq, Repr

/-- The fire positions an order has from PASTING (R118). -/
structure FirePositions where
  pt : Pos
  pp : Pos
  pn : Pos
  pk : Pos
  k : Nat
  deriving DecidableEq, Repr

/-- The results of a row closed DONE (R86). -/
structure DoneResults where
  splicePosition : Pos
  stub : Option Nat
  cutConfirmed : Bool
  faultAfterPaste : Bool
  deriving DecidableEq, Repr

/-- A non-EMPTY order row (04_splice_orders.md, "Order fields"). The commit point Q − A, the latest commit
point Plate − A and their watches follow from the state and are computed. -/
structure OrderRow where
  tag : Nat
  stand : StandId
  state : OrderState
  expiring : Nat
  newReel : Nat
  newArm : Arm
  go : Bool
  past : Bool
  place : Option Placement
  distance : Option Nat
  commitment : Option Commitment
  fire : Option FirePositions
  late : Bool
  speedLow : Bool
  spacingShort : Bool
  reason : Option OrderReason
  results : Option DoneResults
  deriving DecidableEq, Repr

/-- An entry of a line schedule (05_the_line_schedule.md, "The schedule list"). -/
structure Entry where
  row : RowId
  stand : StandId
  frozen : Bool
  place : Placement
  spacingShort : Bool
  distance : Nat
  deriving DecidableEq, Repr

/-- The sequencer phases but IDLE, which is the absence of a context (R106). -/
inductive Phase
  | accelerating
  | matched
  | pasting
  | closing
  deriving DecidableEq, Repr

/-- A sequencer context in any phase but IDLE (06_executing_a_splice.md). The deadline, Pp and Pk watches
follow from the phase and `pasteFired`, and are computed. -/
structure Sequencer where
  phase : Phase
  row : RowId
  newArm : Arm
  oldArm : Option Arm
  circumference : Nat
  tolerance : Nat
  accepted : Bool
  inRun : Bool
  outRun : Bool
  missRun : Bool
  cNew : Option Nat
  pasteSpeed : Option Nat
  pasteFired : Bool
  stub : Option Nat
  cutWait : Option Nat
  cutConfirmed : Bool
  retractWait : Option Nat
  retractEnded : Bool
  faultAfterPaste : Bool
  deriving DecidableEq, Repr

/-- A stand-bus request (R137): its kind, its arm where the kind has one, ACCEL's target circumference,
and for a GAUGE the reel number whose MOUNT queued it (assumption log 14). -/
structure Request where
  kind : RequestKind
  arm : Option Arm
  circumference : Option Nat
  reel : Option Nat
  deriving DecidableEq, Repr

/-- An outstanding read (R144): what was read, the GAUGE's reel, and the limit. -/
structure OutstandingRead where
  read : ReadKind
  reel : Option Nat
  limit : Nat
  deriving DecidableEq, Repr

/-- The message pair (R140, R142, R147). -/
inductive Pair
  | free
  | request (stand : StandId) (req : Request) (abandoned : Bool) (limit : Nat)
  | grant (stand : StandId) (limit : Nat)
  deriving DecidableEq, Repr

/-- The arbiter's last turn (R140). -/
inductive Turn
  | none
  | request
  | grant
  deriving DecidableEq, Repr

/-- The five flags of a slot: bit 0 PRESENT, 1 UNSAFE, 2 STOP_HELD, 3 BID, 4 MOVING (R153). -/
abbrev SlotReading := BitVec 5

/-- The Stand Bus Controller (R133 to R152). `scan` is the START slot of a running scan and absent while
the scan line rests. `sent` and `report` are the model's own: the last request or grant frame and the last
ARM REPORT frame that the part sent on the pair (assumption log 30). -/
structure Bus where
  quiet : Bool
  scan : Option Byte
  lastEnd : Option Nat
  slots : Vector SlotReading 8
  bids : Vector Bool 8
  queues : Vector (List Request) 8
  reads : Vector (List OutstandingRead) 8
  indexes : Vector (Option Nat) 8
  lapses : Vector Nat 8
  pair : Pair
  lastTurn : Turn
  requestPtr : StandId
  grantPtr : StandId
  sent : List Byte
  report : List Byte
  deriving DecidableEq, Repr

/-- The conditions of a stand (R154). -/
inductive Condition
  | offline
  | online
  | fault
  | lockedOut
  deriving DecidableEq, Repr

/-- The hard errors (R162). -/
inductive HardError
  | standUnsafe
  | lost
  | noReply
  | indexTimeout
  | indexMismatch
  | armFault
  deriving DecidableEq, Repr

/-- A hard-error set: which of the six errors are held (08_stand_conditions_and_faults.md). -/
structure HardErrors where
  standUnsafe : Bool
  lost : Bool
  noReply : Bool
  indexTimeout : Bool
  indexMismatch : Bool
  armFault : Bool
  deriving DecidableEq, Repr

/-- The kinds of last outcome, with the arm and the stand reason each carries (R167). -/
inductive LastOutcome
  | none
  | statusDone
  | statusBadMap
  | statusRefused (reason : StandReason)
  | statusNoResponse
  | indexDone
  | indexMismatch
  | indexTimeout
  | indexRefused (reason : StandReason)
  | gaugeStored (arm : Arm)
  | gaugeRange (arm : Arm)
  | gaugeNoReply (arm : Arm) (reason : Option StandReason)
  | verifyRefused (arm : Arm) (reason : StandReason)
  | accelRefused (arm : Arm) (reason : StandReason)
  | coastRefused (arm : Arm) (reason : StandReason)
  | brakeRefused (arm : Arm) (reason : StandReason)
  | retractRefused (reason : StandReason)
  | retractTimeout
  deriving DecidableEq, Repr

/-- A stand context of the Stand Supervisor (R154). -/
structure StandContext where
  condition : Condition
  map : Option (PerArm SpiderPos)
  loaded : PerArm Bool
  errors : HardErrors
  misses : Nat
  stopHold : Option Nat
  outcome : LastOutcome
  deriving DecidableEq, Repr

/-- The floors in force of a line (R174). -/
structure Floors where
  measure : Nat
  splice : Nat
  deriving DecidableEq, Repr

/-- The Settings Store (R171). -/
structure Settings where
  stands : Vector (Vector Nat 14) 8
  lines : Vector (Vector Nat 4) 4
  floors : Vector Floors 4
  deriving DecidableEq, Repr

/-- The target of a parameter (R172). -/
inductive Target
  | stand (st : StandId)
  | line (l : LineId)
  deriving DecidableEq, Repr

/-- An open parameter run (R176). -/
structure ParamRun where
  target : Target
  next : Nat
  deriving DecidableEq, Repr

/-- An answer frame being sent: its code, with bit 7 set, and its payload, the status first (R179). -/
structure Answer where
  code : Byte
  payload : List Byte
  deriving DecidableEq, Repr

/-- The Console Port (R178 to R190). The change flags are numbered as the four bytes of R184: bits 0 to 7
the stands, 8 to 23 the rows, 24 to 27 the lines. -/
structure Port where
  address : BitVec 5
  run : Option ParamRun
  flags : BitVec 28
  answer : Option Answer
  deriving DecidableEq, Repr

/-- The machine. `now` is the part's own clock in ms; `resetHeld` is the level of the RESET pin; `pending`
is the queue of the commands that wait, first in first out. -/
structure State where
  now : Nat
  resetHeld : Bool
  lines : Vector LineCounter 4
  arms : Vector (PerArm ArmContext) 8
  outputs : Vector Outputs 8
  reels : Vector (Option ReelRecord) 64
  verifies : Vector (Option VerifyRun) 8
  trackers : Vector (Option Tracker) 8
  rows : Vector (Option OrderRow) 16
  allocStart : RowId
  schedules : Vector (List Entry) 4
  sequencers : Vector (Option Sequencer) 8
  bus : Bus
  stands : Vector StandContext 8
  settings : Settings
  port : Port
  pending : List Instr
  deriving DecidableEq, Repr

/-- Why the machine could stop with a fault. The SC-24 never stops: it has no constructor, so no step ends
in a fault (safe: every command of the table has its effect). -/
inductive Fault
  deriving DecidableEq, Repr

/-- Why a command is not carried out. -/
inductive Refusal
  /-- Raised by the dispatch for a command that has no meaning yet. Safe: the machine stops. No arm raises
  it: every command of the table has its meaning. -/
  | notModelled (mnemonic : String)
  deriving DecidableEq, Repr

/-- An empty arm context (R5). -/
def emptyArm : ArmContext := ⟨none, none, 0, none⟩

/-- The same value for each arm. -/
def perArm {α : Type} (x : α) : PerArm α := ⟨x, x, x⟩

/-- No hard error held. -/
def noErrors : HardErrors := ⟨false, false, false, false, false, false⟩

/-- A stand context after power-on reset (R154). -/
def resetStand : StandContext :=
  ⟨.offline, none, perArm false, noErrors, 0, none, .none⟩

/-- The Stand Bus Controller after power-on reset (R150). -/
def resetBus : Bus where
  quiet := false
  scan := none
  lastEnd := none
  slots := Vector.replicate 8 0
  bids := Vector.replicate 8 false
  queues := Vector.replicate 8 []
  reads := Vector.replicate 8 []
  indexes := Vector.replicate 8 none
  lapses := Vector.replicate 8 0
  pair := .free
  lastTurn := .none
  requestPtr := 0
  grantPtr := 0
  sent := []
  report := []

/-- The Settings Store after power-on reset: every value and every floor in force its default (R171). -/
def resetSettings : Settings where
  stands := Vector.replicate 8 standDefaults
  lines := Vector.replicate 4 lineDefaults
  floors := Vector.replicate 4 ⟨lineDefaults[1], lineDefaults[2]⟩

/-- The machine right after power-on reset, with the RESET pin not yet released (R1, R5, R14, R43, R45,
R89, R93, R106, R150, R154, R171, R190). The unit address is 1 (assumption log 11). -/
def State.reset : State where
  now := 0
  resetHeld := true
  lines := Vector.replicate 4 ⟨0, 0, 0, false, windowMs⟩
  arms := Vector.replicate 8 (perArm emptyArm)
  outputs := Vector.replicate 8 ⟨none, none⟩
  reels := Vector.replicate 64 none
  verifies := Vector.replicate 8 none
  trackers := Vector.replicate 8 none
  rows := Vector.replicate 16 none
  allocStart := 0
  schedules := Vector.replicate 4 []
  sequencers := Vector.replicate 8 none
  bus := resetBus
  stands := Vector.replicate 8 resetStand
  settings := resetSettings
  port := ⟨1, none, 0, none⟩
  pending := []

end Sys2Proof.Machine
end

