-- ==== Sys2Proof/Machine/Ops.lean ====
section
/-! DEFINITION. The named operations over the state: position arithmetic, the numbered tables, one setter
per field, and the look-ups that several blocks share. -/

namespace Sys2Proof.Machine

open Sys2Proof

/-- The three outcomes of a command. -/
abbrev Result : Type := Host.Outcome State Fault Refusal

/-! ## Positions (00_scope.md, "Line position and the at-or-after test") -/

/-- (a − b) mod 2^32, the web fed from b to a. -/
def distance (a b : Pos) : Nat := (a - b).toNat

/-- Position a is at or after position b. -/
def atOrAfter (a b : Pos) : Bool := decide (distance a b < 2147483648)

/-- The position d web steps beyond p. -/
def fwd (p : Pos) (d : Nat) : Pos := p + BitVec.ofNat 32 d

/-- The position d web steps before p. -/
def back (p : Pos) (d : Nat) : Pos := p - BitVec.ofNat 32 d

/-- The later of two positions (R108): the one at or after the other. -/
def later (a b : Pos) : Pos := if atOrAfter a b then a else b

/-- The offset of position p from the line position L, behind it negative (R92). -/
def offset (p l : Pos) : Int :=
  if distance p l < 2147483648 then (distance p l : Int) else (distance p l : Int) - 4294967296

/-- A diameter in mm as a circumference in web steps (R17). -/
def circumferenceOf (d : Nat) : Nat := d * 31416 / 1000

/-! ## Tables of a fixed number of things -/

/-- The entry of a table under a number. -/
def vget {α : Type} {n : Nat} (v : Vector α n) (i : Fin n) : α := v[i.val]

/-- The table with one entry replaced. -/
def vset {α : Type} {n : Nat} (v : Vector α n) (i : Fin n) (x : α) : Vector α n := v.set i.val x

/-- The numbers of a table, in ascending order. -/
def indices (n : Nat) : List (Fin n) := List.finRange n

/-- The stands in cyclic order from one of them (R141). -/
def cyclic (st : StandId) : List StandId := (indices 8).map (fun i => st + i)

/-- The value of one arm. -/
def armGet {α : Type} (p : PerArm α) : Arm → α
  | .a => p.a
  | .b => p.b
  | .c => p.c

/-- The values with one arm's replaced. -/
def armSet {α : Type} (p : PerArm α) (arm : Arm) (x : α) : PerArm α :=
  match arm with
  | .a => { p with a := x }
  | .b => { p with b := x }
  | .c => { p with c := x }

/-- The arms in order. -/
def allArms : List Arm := [.a, .b, .c]

/-! ## One setter per field of the state -/

def setNow (s : State) (t : Nat) : State := { s with now := t }
def setResetHeld (s : State) (b : Bool) : State := { s with resetHeld := b }
def setLine (s : State) (l : LineId) (x : LineCounter) : State :=
  { s with lines := vset s.lines l x }
def setArms (s : State) (st : StandId) (x : PerArm ArmContext) : State :=
  { s with arms := vset s.arms st x }
def setOutputs (s : State) (st : StandId) (x : Outputs) : State :=
  { s with outputs := vset s.outputs st x }
def setReel (s : State) (i : SlotId) (x : Option ReelRecord) : State :=
  { s with reels := vset s.reels i x }
def setVerify (s : State) (st : StandId) (x : Option VerifyRun) : State :=
  { s with verifies := vset s.verifies st x }
def setTracker (s : State) (st : StandId) (x : Option Tracker) : State :=
  { s with trackers := vset s.trackers st x }
def setRow (s : State) (r : RowId) (x : Option OrderRow) : State :=
  { s with rows := vset s.rows r x }
def setAllocStart (s : State) (r : RowId) : State := { s with allocStart := r }
def setSchedule (s : State) (l : LineId) (x : List Entry) : State :=
  { s with schedules := vset s.schedules l x }
def setSequencer (s : State) (st : StandId) (x : Option Sequencer) : State :=
  { s with sequencers := vset s.sequencers st x }
def setBus (s : State) (b : Bus) : State := { s with bus := b }
def setStand (s : State) (st : StandId) (x : StandContext) : State :=
  { s with stands := vset s.stands st x }
def setSettings (s : State) (x : Settings) : State := { s with settings := x }
def setPort (s : State) (p : Port) : State := { s with port := p }

/-! ## Time -/

/-- The clock brought up to time t: a timer's end is never taken before its time (assumption log 3). -/
def reachTime (t : Nat) (s : State) : State := setNow s (max s.now t)

/-! ## Settings as their users read them (R174, R175) -/

/-- A stand parameter by its index. -/
def standParam (s : State) (st : StandId) (i : Fin 14) : Nat := vget (vget s.settings.stands st) i

/-- A line parameter by its index. -/
def lineParam (s : State) (l : LineId) (i : Fin 4) : Nat := vget (vget s.settings.lines l) i

/-- The press line a stand is assigned to: its line parameter, 1 to 4. -/
def lineOf (s : State) (st : StandId) : LineId := Fin.ofNat 4 (standParam s st 0 - 1)

/-- The stub S in web steps. -/
def stubSteps (s : State) (st : StandId) : Nat := standParam s st 1 * stepsPerMetre

/-- The effective minimum stub in web steps: the smaller of the minimum stub and S (R59). -/
def minStubSteps (s : State) (st : StandId) : Nat :=
  min (standParam s st 2) (standParam s st 1) * stepsPerMetre

/-- The spacing Gmin of a line in web steps (R96). -/
def spacingSteps (s : State) (l : LineId) : Nat := lineParam s l 0 * stepsPerMetre

/-- The line position of a line. -/
def position (s : State) (l : LineId) : Pos := (vget s.lines l).position

/-- The line position of a stand's line. -/
def standPos (s : State) (st : StandId) : Pos := position s (lineOf s st)

/-- The line speed of a stand's line, from the last completed window. -/
def standSpeed (s : State) (st : StandId) : Nat := (vget s.lines (lineOf s st)).speed

/-! ## Look-ups in the Reel Table -/

/-- The slot of the record that has a reel number (R19: numbers are pairwise different). -/
def findReel (s : State) (n : Nat) : Option SlotId :=
  (indices 64).find? fun i => (vget s.reels i).any fun r => r.reel == n

/-- The record that has a reel number. -/
def reelOf (s : State) (n : Nat) : Option ReelRecord := (findReel s n).bind fun i => vget s.reels i

/-- The slot of the record bound to an arm. -/
def boundSlot (s : State) (st : StandId) (arm : Arm) : Option SlotId :=
  (indices 64).find? fun i => (vget s.reels i).any fun r => r.stand == st && r.arm == some arm

/-- The record bound to an arm. -/
def boundReel (s : State) (st : StandId) (arm : Arm) : Option ReelRecord :=
  (boundSlot s st arm).bind fun i => vget s.reels i

/-- The RUNNING record of a stand (R29: at most one). -/
def runningReel (s : State) (st : StandId) : Option ReelRecord :=
  ((indices 64).find? fun i =>
    (vget s.reels i).any fun r => r.stand == st && r.state == .running).bind fun i => vget s.reels i

/-- The lowest-numbered FREE slot (R16). -/
def freeSlot (s : State) : Option SlotId :=
  (indices 64).find? fun i => (vget s.reels i).isNone

/-- A change of the record that has a reel number; nothing when there is none. -/
def modReel (n : Nat) (f : ReelRecord → ReelRecord) (s : State) : State :=
  match findReel s n with
  | some i => setReel s i ((vget s.reels i).map f)
  | none => s

/-- The caliper in force for a record: its own, else its stand's default (R18). -/
def caliperOf (s : State) (r : ReelRecord) : Nat :=
  r.caliper.getD (standParam s r.stand 10)

/-! ## Look-ups in the Order Table -/

/-- The waiting states (04_splice_orders.md, "Order states"). -/
def OrderState.waiting : OrderState → Bool
  | .armed | .held => true
  | _ => false

/-- The committed states. -/
def OrderState.committed : OrderState → Bool
  | .accelerating | .matched | .pasting | .closing => true
  | _ => false

/-- The open states. -/
def OrderState.isOpen : OrderState → Bool
  | .armed | .held | .accelerating | .matched | .pasting | .closing => true
  | _ => false

/-- The row of a stand's open order (R70: at most one). -/
def openRow (s : State) (st : StandId) : Option RowId :=
  (indices 16).find? fun i => (vget s.rows i).any fun r => r.stand == st && r.state.isOpen

/-- The row that holds a tag (R69: tags are pairwise different). -/
def rowOfTag (s : State) (tag : Nat) : Option RowId :=
  (indices 16).find? fun i => (vget s.rows i).any fun r => r.tag == tag

/-- The commit point Q − A, present while ARMED or HELD (R101). -/
def OrderRow.commitPoint (r : OrderRow) : Option Pos :=
  match r.state.waiting, r.place, r.distance with
  | true, some p, some a => some (back p.q a)
  | _, _, _ => none

/-- The latest commit point Plate − A, present while ARMED or HELD (R73). -/
def OrderRow.latestCommitPoint (r : OrderRow) : Option Pos :=
  match r.state.waiting, r.place, r.distance with
  | true, some p, some a => some (back p.plate a)
  | _, _, _ => none

/-- The slot of an order's reel, when the record that carries the order's tag still exists (R30). -/
def orderReel (s : State) (row : OrderRow) (n : Nat) : Option SlotId :=
  (findReel s n).filter fun i => (vget s.reels i).any fun r => r.tag == some row.tag

/-! ## Look-ups in the stand contexts -/

/-- The spider position of an arm, when the stand has a spider map. -/
def armPosition (s : State) (st : StandId) (arm : Arm) : Option SpiderPos :=
  (vget s.stands st).map.map fun m => armGet m arm

/-- The arm that the spider map shows at SPLICE (R9). -/
def spliceArm (s : State) (st : StandId) : Option Arm :=
  allArms.find? fun arm => armPosition s st arm == some .splice

/-- The stand is ONLINE. -/
def isOnline (s : State) (st : StandId) : Bool := (vget s.stands st).condition == .online

/-- An arm is loaded-unbound: loaded, with no record bound to it. -/
def loadedUnbound (s : State) (st : StandId) (arm : Arm) : Bool :=
  armGet (vget s.stands st).loaded arm && (boundSlot s st arm).isNone

/-! ## Arm contexts -/

/-- The context of an arm. -/
def armContext (s : State) (st : StandId) (arm : Arm) : ArmContext := armGet (vget s.arms st) arm

/-- The context of an arm replaced. -/
def setArmContext (s : State) (st : StandId) (arm : Arm) (x : ArmContext) : State :=
  setArms s st (armSet (vget s.arms st) arm x)

/-- The tape counts of a stand's three arms cleared; marks and intervals kept (R11). -/
def clearTapeCounts (st : StandId) (s : State) : State :=
  let p := vget s.arms st
  setArms s st
    ⟨{ p.a with tapeCount := 0 }, { p.b with tapeCount := 0 }, { p.c with tapeCount := 0 }⟩

/-! ## Fire requests (R12, R13) -/

/-- A pulse end time under a fire request: the later of the one held and now plus the width. -/
def firePulse (held : Option Nat) (now width : Nat) : Option Nat :=
  match held with
  | none => some (now + width)
  | some e => some (max e (now + width))

/-- A fire request on a stand's output. -/
def fireOutput (st : StandId) (out : OutputLine) (width : Nat) (s : State) : State :=
  let o := vget s.outputs st
  match out with
  | .paste => setOutputs s st { o with paste := firePulse o.paste s.now width }
  | .knife => setOutputs s st { o with knife := firePulse o.knife s.now width }

end Sys2Proof.Machine
end

