-- ==== Sys2Proof/Machine/Measuring.lean ====
section
/-! DEFINITION. The arithmetic of a running reel: the decrement, the remaining length, its extrapolation,
the plausibility bounds and the splice positions (R50, R54 to R60). -/

namespace Sys2Proof.Machine

open Sys2Proof

/-- The nominal decrement of a caliper (R54). -/
def nominalDecrement (caliper : Nat) : Nat := caliper * 201 / 200

/-- The raw learned value of a full window, floored towards minus infinity (R55). -/
def rawLearned (first last : Nat) : Int := 16 * ((first : Int) - (last : Int)) / 31

/-- A raw value clamped to its range, and whether it was clamped (R55). -/
def clampLearned (nominal : Nat) (raw : Int) : Nat × Bool :=
  let lo := max 1 (nominal / 2)
  let hi := 2 * nominal
  if raw < (lo : Int) then (lo, true)
  else if (hi : Int) < raw then (hi, true)
  else (raw.toNat, false)

/-- The decrement in use for a window, and DECREMENT_CLAMPED (R55). -/
def decrementOf (nominal : Nat) (window : List Nat) : Nat × Bool :=
  if window.length < 32 then (nominal, false)
  else clampLearned nominal (rawLearned (window.headD 0) (window.getLastD 0))

/-- The remaining length at a mark (R56). The products stay below 2^48, so Nat is exact. -/
def remainingAt (c core delta : Nat) : Nat :=
  if core < c then 8 * (c * c - core * core) / delta else 0

/-- The remaining length a tracker gives for a position (R57). -/
def extrapolated (t : Tracker) (p : Pos) : Option Nat :=
  if t.runoutHeld then some 0
  else t.mark.map fun m =>
    if atOrAfter p m.position then m.remaining - distance p m.position else m.remaining

/-- The first bound of the plausibility test (R50). -/
def firstBound (core c : Nat) : Bool := decide (core < c) && decide (c ≤ 42000)

/-- The second bound, or what stands in its place while the relaxed test is pending (R50). Outside the
relaxed test C_prev is present. -/
def secondBound (t : Tracker) (c : Nat) : Bool :=
  match t.cPrev with
  | none => true
  | some p => decide (c ≤ p + 16) && (t.relaxed || decide (p ≤ c + 64))

/-- The plausibility test (R50). -/
def plausible (t : Tracker) (core c : Nat) : Bool := firstBound core c && secondBound t c

/-- The recovery tolerance 16 + ceil(δ16_nom / 16) (R64). -/
def recoveryTolerance (nominal : Nat) : Nat := 16 + (nominal + 15) / 16

/-- |a − b|. -/
def gap (a b : Nat) : Nat := (a - b) + (b - a)

/-- The splice position that leaves a stub of `stub` web steps (R59). -/
def splicePoint (m : SampleMark) (stub : Nat) : Pos :=
  if stub ≤ m.remaining then fwd m.position (m.remaining - stub) else m.position

/-- The preferred and latest splice positions a stand's tracker gives (R59, R60). -/
def splicePositions (s : State) (st : StandId) : Option (Pos × Pos) :=
  ((vget s.trackers st).bind (·.mark)).map fun m =>
    (splicePoint m (stubSteps s st), splicePoint m (minStubSteps s st))

/-- The remaining length a lookup reports (R34): for the RUNNING record the tracker follows, the one
extrapolated to the line position; else the stored one. -/
def reportedRemaining (s : State) (r : ReelRecord) : Option Nat :=
  match r.state, vget s.trackers r.stand with
  | .running, some t =>
    if t.reel == r.reel then extrapolated t (standPos s r.stand) else r.remaining
  | _, _ => r.remaining

/-- A tracker at the start of a run (R46, R47). -/
def freshTracker (reel : Nat) (arm : Arm) (cPrev : Option Nat) : Tracker where
  state := .warming
  reel := reel
  arm := arm
  window := []
  cPrev := cPrev
  relaxed := true
  rejects := 0
  candidate := none
  mark := none
  runoutHeld := false
  delta := none
  clampReported := false

end Sys2Proof.Machine
end

