-- ==== Sys2Proof/Machine/Placing.lean ====
section
/-! DEFINITION. Placement: how a line schedule gives each PLACED entry its Q (R92, R97 to R99). -/

namespace Sys2Proof.Machine

open Sys2Proof

/-- A value put into an ascending list. -/
def insertSorted {α : Type} (before : α → α → Bool) (x : α) : List α → List α
  | [] => [x]
  | y :: ys => if before y x then y :: insertSorted before x ys else x :: y :: ys

/-- A list in ascending order. -/
def sortBy {α : Type} (before : α → α → Bool) (l : List α) : List α :=
  l.foldr (insertSorted before) []

/-- Ascending offset of a position, then ascending row number (R92, R97). -/
def entryBefore (l : Pos) (key : Entry → Pos) (x y : Entry) : Bool :=
  decide (offset (key x) l < offset (key y) l) ||
    (decide (offset (key x) l = offset (key y) l) && decide (x.row < y.row))

/-- The entries in the order placement takes them: by Plate (R97). -/
def takingOrder (l : Pos) (es : List Entry) : List Entry := sortBy (entryBefore l (·.place.plate)) es

/-- The entries in listing order: by Q (R92). -/
def listingOrder (l : Pos) (es : List Entry) : List Entry := sortBy (entryBefore l (·.place.q)) es

/-- Position x lies in the blocked interval around q (R98). -/
def blocked (gmin : Nat) (q x : Pos) : Bool :=
  let d := (x - q + BitVec.ofNat 32 gmin).toNat
  decide (0 < d) && decide (d < 2 * gmin)

/-- The first unblocked position from x, with at most `n` moves (R98). -/
def firstFree (gmin : Nat) (qs : List Pos) : Nat → Pos → Pos
  | 0, x => x
  | n + 1, x =>
    match qs.find? fun q => blocked gmin q x with
    | none => x
    | some q => firstFree gmin qs n (fwd q gmin)

/-- An entry placed around its blockers (R99). -/
def placeEntry (gmin : Nat) (qs : List Pos) (e : Entry) : Entry :=
  let x := firstFree gmin qs qs.length e.place.ppref
  if atOrAfter e.place.plate x then
    { e with place := { e.place with q := x }, spacingShort := false }
  else
    { e with place := { e.place with q := e.place.ppref }, spacingShort := true }

/-- The PLACED entries placed one at a time, each blocking those after it (R97). -/
def placeAll (gmin : Nat) : List Pos → List Entry → List Entry
  | _, [] => []
  | qs, e :: es =>
    let e' := placeEntry gmin qs e
    e' :: placeAll gmin (qs ++ [e'.place.q]) es

/-- The commit distance A (R101). -/
def commitDistance (v tAcc cOut : Nat) : Nat := v * tAcc / 1000 + 3 * cOut

end Sys2Proof.Machine
end

