-- ==== Sys2Proof/Machine/Flags.lean ====
section
/-! DEFINITION. The change flags and the attention line (R183 to R186). -/

namespace Sys2Proof.Machine

open Sys2Proof

/-- The bit of a stand's change flag (R184). -/
def standBit (st : StandId) : Nat := st.val

/-- The bit of an order row's change flag (R184). -/
def rowBit (r : RowId) : Nat := 8 + r.val

/-- The bit of a line's change flag (R184). -/
def lineBit (l : LineId) : Nat := 24 + l.val

/-- Whether a change flag is set. -/
def flagSet (s : State) (bit : Nat) : Bool := s.port.flags.getLsbD bit

/-- A change flag set when its report enable is on; unchanged when it is off (R183). -/
def raiseBit (enabled : Bool) (bit : Nat) (s : State) : State :=
  if enabled then
    setPort s { s.port with flags := s.port.flags ||| (1#28 <<< bit) }
  else s

/-- The report enable of a stand (R175). -/
def standEnabled (s : State) (st : StandId) : Bool := standParam s st 13 == 1

/-- The report enable of a line (R175). -/
def lineEnabled (s : State) (l : LineId) : Bool := lineParam s l 3 == 1

/-- A request to raise a stand's change flag. -/
def raiseStand (st : StandId) (s : State) : State := raiseBit (standEnabled s st) (standBit st) s

/-- A request to raise a row's change flag, gated by the stand the row names (R175). -/
def raiseRow (r : RowId) (st : StandId) (s : State) : State :=
  raiseBit (standEnabled s st) (rowBit r) s

/-- A request to raise a line's change flag. -/
def raiseLine (l : LineId) (s : State) : State := raiseBit (lineEnabled s l) (lineBit l) s

/-- The attention line is asserted exactly when at least one change flag is set (R186). -/
def attention (s : State) : Bool := s.port.flags != 0

/-- The last outcome written, which raises the stand's change flag (R167). -/
def writeOutcome (st : StandId) (o : LastOutcome) (s : State) : State :=
  raiseStand st (setStand s st { vget s.stands st with outcome := o })

end Sys2Proof.Machine
end

