-- ==== Sys2Proof/WellFormed.lean ====
section
/-! DEFINITION. Which commands a sender can form: the operand combinations that the frame layouts allow
(R142, R144, R153, R178, R179). The machine is total on the others too. -/

namespace Sys2Proof

/-- The kinds of request that name an arm (R153, the Arm column). -/
def RequestKind.hasArm : RequestKind → Bool
  | .verify | .accel | .coast | .brake | .gauge => true
  | .index | .retract | .status => false

/-- The command codes of the console's command table (R181). -/
def commandCodes : List Byte :=
  [0x01, 0x02, 0x03, 0x04, 0x05, 0x06, 0x07, 0x08, 0x09, 0x0A,
   0x10, 0x11, 0x12, 0x13, 0x14, 0x20, 0x21, 0x22, 0x23,
   0x30, 0x31, 0x32, 0x33, 0x40, 0x41, 0x50, 0x51]

/-- A console frame's address is 0 to 31 and its payload at most 58 bytes (R178). -/
def consoleWf (address : Byte) (payload : List Byte) : Bool :=
  decide (address.toNat ≤ 31) && decide (payload.length ≤ 58)

/-- The commands that the frame layouts admit. -/
def Instr.wf : Instr → Bool
  | .accept _ k arm => k.hasArm == arm.isSome
  | .refuse _ k arm _ => k.hasArm == arm.isSome
  | .answerFrameSeen ad code p => consoleWf ad p && code.getLsbD 7
  | .unknownCode ad code p =>
      consoleWf ad p && !code.getLsbD 7 && !commandCodes.contains code
  | .enterReel ad p => consoleWf ad p
  | .mountReel ad p => consoleWf ad p
  | .prepared ad p => consoleWf ad p
  | .amendReel ad p => consoleWf ad p
  | .retireReel ad p => consoleWf ad p
  | .readReel ad p => consoleWf ad p
  | .readArm ad p => consoleWf ad p
  | .listReels ad p => consoleWf ad p
  | .threadReel ad p => consoleWf ad p
  | .stopReel ad p => consoleWf ad p
  | .orderSplice ad p => consoleWf ad p
  | .confirm ad p => consoleWf ad p
  | .cancelOrder ad p => consoleWf ad p
  | .releaseOrder ad p => consoleWf ad p
  | .readOrder ad p => consoleWf ad p
  | .indexStand ad p => consoleWf ad p
  | .clearStand ad p => consoleWf ad p
  | .readStand ad p => consoleWf ad p
  | .readLine ad p => consoleWf ad p
  | .setParameter ad p => consoleWf ad p
  | .readParameter ad p => consoleWf ad p
  | .parameterRun ad p => consoleWf ad p
  | .data ad p => consoleWf ad p
  | .readChanges ad p => consoleWf ad p
  | .ackChanges ad p => consoleWf ad p
  | .scanMode ad p => consoleWf ad p
  | .restart ad p => consoleWf ad p
  | .powerOnReset _ => true
  | .resetRelease => true
  | .encoderPulse _ => true
  | .speedWindowEnd _ => true
  | .commitPointReport _ => true
  | .latestCommitPointReport _ => true
  | .matchDeadlineReport _ => true
  | .pastePositionReport _ => true
  | .knifePositionReport _ => true
  | .staleLimitReached _ _ => true
  | .pulseEnd _ _ => true
  | .revolutionMark _ _ => true
  | .tapeMark _ => true
  | .scanCall => true
  | .quietTimer => true
  | .scanEnd _ => true
  | .stopHoldTimerEnd _ => true
  | .replyTimeEnd => true
  | .grantLapse => true
  | .readLimit _ _ => true
  | .indexTimeout _ => true
  | .verifyTimeout _ => true
  | .cutWaitEnd _ => true
  | .retractTimeout _ => true
  | .response _ _ => true
  | .indexDone _ _ _ _ => true
  | .verifyDone _ _ => true
  | .armHome _ => true
  | .cutConfirmed _ => true
  | .armLoaded _ _ => true
  | .armEmptied _ _ => true
  | .queryArm _ _ => true
  | .consoleFrameDiscarded _ => true
  | .answerSent => true
  | .unroutedStandMessage _ => true

end Sys2Proof
end

