-- ==== Sys2Proof/Machine/Frames.lean ====
section
/-! DEFINITION. The three layouts the manual gives bit by bit: the console frame (R178), the stand-bus
message frame and the scan slot (R153), and which command a received frame is. -/

namespace Sys2Proof.Machine

open Sys2Proof

/-! ## Bytes -/

/-- The n low bytes of a value, most significant byte first (R181). -/
def beBytes : Nat → Nat → List Byte
  | 0, _ => []
  | n + 1, v => beBytes n (v / 256) ++ [BitVec.ofNat 8 v]

/-- The value of a list of bytes, most significant byte first. -/
def ofBytes (bs : List Byte) : Nat := bs.foldl (fun acc b => acc * 256 + b.toNat) 0

/-- One bit of the CRC: generator x^16 + x^12 + x^5 + 1 (assumption log 19). -/
def crcBit (c : BitVec 16) : BitVec 16 :=
  if c.getLsbD 15 then (c <<< 1) ^^^ 0x1021#16 else c <<< 1

/-- One byte taken into the CRC, its most significant bit first. -/
def crcByte (c : BitVec 16) (b : Byte) : BitVec 16 :=
  let c0 := c ^^^ (b.setWidth 16 <<< 8)
  crcBit (crcBit (crcBit (crcBit (crcBit (crcBit (crcBit (crcBit c0)))))))

/-- CRC-16 with initial value 0xFFFF (R153, R178). -/
def crc16 (bs : List Byte) : BitVec 16 := bs.foldl crcByte 0xFFFF#16

/-! ## The console frame (R178) -/

/-- A console frame: marker, address, code, length, payload and CRC over all but the marker. -/
def consoleFrame (address code : Byte) (payload : List Byte) : List Byte :=
  let body := address :: code :: BitVec.ofNat 8 payload.length :: payload
  0xA5 :: body ++ beBytes 2 (crc16 body).toNat

/-- The address, code and payload of a frame that is taken; none for one that is discarded (R178). -/
def parseConsole (bytes : List Byte) : Option (Byte × Byte × List Byte) :=
  match bytes with
  | marker :: address :: code :: len :: rest =>
    let payload := rest.take len.toNat
    if marker == 0xA5 && decide (len.toNat ≤ 58) && rest.length == len.toNat + 2 &&
        rest.drop len.toNat == beBytes 2 (crc16 (address :: code :: len :: payload)).toNat then
      some (address, code, payload)
    else none
  | _ => none

/-- The command of a command code (R181); a code not in the table is UNKNOWN_CODE (R179). -/
def commandOf (address code : Byte) (p : List Byte) : Instr :=
  match code.toNat with
  | 0x01 => .enterReel address p
  | 0x02 => .mountReel address p
  | 0x03 => .prepared address p
  | 0x04 => .amendReel address p
  | 0x05 => .retireReel address p
  | 0x06 => .readReel address p
  | 0x07 => .readArm address p
  | 0x08 => .listReels address p
  | 0x09 => .threadReel address p
  | 0x0A => .stopReel address p
  | 0x10 => .orderSplice address p
  | 0x11 => .confirm address p
  | 0x12 => .cancelOrder address p
  | 0x13 => .releaseOrder address p
  | 0x14 => .readOrder address p
  | 0x20 => .indexStand address p
  | 0x21 => .clearStand address p
  | 0x22 => .readStand address p
  | 0x23 => .readLine address p
  | 0x30 => .setParameter address p
  | 0x31 => .readParameter address p
  | 0x32 => .parameterRun address p
  | 0x33 => .data address p
  | 0x40 => .readChanges address p
  | 0x41 => .ackChanges address p
  | 0x50 => .scanMode address p
  | 0x51 => .restart address p
  | _ => .unknownCode address code p

/-- The command that a received console frame is (R178, R179). -/
def consoleCommandOf (bytes : List Byte) : Instr :=
  match parseConsole bytes with
  | none => .consoleFrameDiscarded bytes
  | some (address, code, p) =>
    if code.getLsbD 7 then .answerFrameSeen address code p else commandOf address code p

/-! ## The stand-bus frame (R153) -/

/-- The kind code of a request. -/
def kindCode : RequestKind → Nat
  | .index => 0x10
  | .verify => 0x11
  | .retract => 0x12
  | .accel => 0x20
  | .coast => 0x21
  | .brake => 0x22
  | .gauge => 0x30
  | .status => 0x31

/-- The request of a kind code. -/
def requestKindOf (code : Byte) : Option RequestKind :=
  match code.toNat with
  | 0x10 => some .index
  | 0x11 => some .verify
  | 0x12 => some .retract
  | 0x20 => some .accel
  | 0x21 => some .coast
  | 0x22 => some .brake
  | 0x30 => some .gauge
  | 0x31 => some .status
  | _ => none

/-- The code of an arm: 1 A, 2 B, 3 C (R153, R181). -/
def armCode : Arm → Nat
  | .a => 1
  | .b => 2
  | .c => 3

/-- The code of an arm byte: 0 for none. -/
def armByte (arm : Option Arm) : Byte :=
  match arm with
  | none => 0
  | some x => BitVec.ofNat 8 (armCode x)

/-- The arm of an arm code 1 to 3. -/
def armOf (b : Byte) : Option Arm :=
  match b.toNat with
  | 1 => some .a
  | 2 => some .b
  | 3 => some .c
  | _ => none

/-- The code of a spider position (R153). -/
def spiderCode : SpiderPos → Nat
  | .load => 1
  | .splice => 2
  | .run => 3

/-- The spider position in bits 1 to 0 of an arm byte; 0 is not well formed. -/
def positionOf (b : Byte) : Option SpiderPos :=
  match b.toNat % 4 with
  | 1 => some .load
  | 2 => some .splice
  | 3 => some .run
  | _ => none

/-- What an arm byte of a STATUS response says: bit 7 is the loaded flag. -/
def armStatusOf (b : Byte) : Option ArmStatus :=
  (positionOf b).map fun p => ⟨p, b.getLsbD 7⟩

/-- The reason of a reason code (R153). -/
def reasonOf (b : Byte) : Option StandReason :=
  match b.toNat with
  | 1 => some .guardOpen
  | 2 => some .driveFault
  | 3 => some .armEmpty
  | _ => none

/-- A frame on the message pair. -/
def busFrame (fromStand : Bool) (st : StandId) (kind arm : Byte) (payload : List Byte) : List Byte :=
  let who := BitVec.ofNat 8 ((if fromStand then 128 else 0) + (st.val + 1))
  let body := who :: kind :: arm :: BitVec.ofNat 8 payload.length :: payload
  0x3C :: body ++ beBytes 2 (crc16 body).toNat

/-- The payload of a request: ACCEL's target circumference, else nothing. -/
def Request.payload (r : Request) : List Byte :=
  match r.kind with
  | .accel => beBytes 2 (r.circumference.getD 0)
  | _ => []

/-- The frame the part sends for a request. -/
def requestFrame (st : StandId) (r : Request) : List Byte :=
  busFrame false st (BitVec.ofNat 8 (kindCode r.kind)) (armByte r.arm) r.payload

/-- The frame the part sends for a grant. -/
def grantFrame (st : StandId) : List Byte := busFrame false st 0x01 0 []

/-- The stand, kind code, arm byte and payload of a frame a stand sends, when its start code, sender bit,
stand number, length and CRC are right. -/
def parseStand (bytes : List Byte) : Option (StandId × Byte × Byte × List Byte) :=
  match bytes with
  | start :: who :: kind :: arm :: len :: rest =>
    let payload := rest.take len.toNat
    let number := who.toNat % 16
    if h : 1 ≤ number ∧ number ≤ 8 then
      if start == 0x3C && who.getLsbD 7 && decide (len.toNat ≤ 11) &&
          rest.length == len.toNat + 2 &&
          rest.drop len.toNat == beBytes 2 (crc16 (who :: kind :: arm :: len :: payload)).toNat then
        some (⟨number - 1, by omega⟩, kind, arm, payload)
      else none
    else none
  | _ => none

/-- The arm byte fits a request's kind, and which arm it names. -/
def echoedArm (k : RequestKind) (b : Byte) : Option (Option Arm) :=
  if k.hasArm then (armOf b).map some else if b == 0 then some none else none

/-- The ATTENTION that a payload is (R153). An event that is none of the three, with arm 0 and no byte after
it, is the message that R147 ignores while it ends the grant (assumption log 20). -/
def attentionOf (st : StandId) (arm : Byte) : List Byte → Option Instr
  | [e, x, y, z] =>
    if e == 1 && arm == 0 then
      match positionOf x, positionOf y, positionOf z with
      | some p, some q, some r => some (.indexDone st p q r)
      | _, _, _ => none
    else none
  | [e] =>
    if e == 2 then (armOf arm).map fun x => .verifyDone st x
    else if e == 1 || arm != 0 then none
    else if e == 3 then some (.armHome st)
    else some (.unroutedStandMessage st)
  | _ => none

/-- The RESPONSE that a payload is (R153). -/
def responseOf (st : StandId) (arm : Byte) : List Byte → Option Instr
  | [k, hi, lo] =>
    if k == 0x30 then
      (armOf arm).map fun x => .response st (.gauge x (BitVec.ofNat 16 (ofBytes [hi, lo])))
    else none
  | [k, x, y, z] =>
    if k == 0x31 && arm == 0 then
      match armStatusOf x, armStatusOf y, armStatusOf z with
      | some p, some q, some r => some (.response st (.status p q r))
      | _, _, _ => none
    else none
  | _ => none

/-- The command that a frame from a stand is; none when it is not well formed (R153). In a grant exchange
an answer frame is a message whose kind is not in R147's routing table. A frame of a stand with a kind code
that the table gives to the part is taken as not well formed: the model's choice (assumption log 40). -/
def standCommandOf (granted : Bool) (bytes : List Byte) : Option Instr :=
  match parseStand bytes with
  | none => none
  | some (st, kind, arm, p) =>
    match kind.toNat, p with
    | 0x81, [k] =>
      match requestKindOf k with
      | none => none
      | some rk => (echoedArm rk arm).map fun x =>
          if granted then .unroutedStandMessage st else .accept st rk x
    | 0x82, [k, w] =>
      match requestKindOf k, reasonOf w with
      | some rk, some why => (echoedArm rk arm).map fun x =>
          if granted then .unroutedStandMessage st else .refuse st rk x why
      | _, _ => none
    | 0x90, _ => attentionOf st arm p
    | 0xA0, _ => responseOf st arm p
    | 0xB0, [] => (armOf arm).map fun x => .armLoaded st x
    | 0xB1, [] => (armOf arm).map fun x => .armEmptied st x
    | 0xB2, [] => if arm == 0 then some (.cutConfirmed st) else none
    | 0xC0, [] =>
      if arm == 0 then some (.queryArm st none) else (armOf arm).map fun x => .queryArm st (some x)
    | _, _ => none

/-! ## The frames that senders form -/

/-- The code of a stand's reason (R153). -/
def reasonByte : StandReason → Byte
  | .guardOpen => 1
  | .driveFault => 2
  | .armEmpty => 3

/-- The kind code of a request as a byte. -/
def kindByte (k : RequestKind) : Byte := BitVec.ofNat 8 (kindCode k)

/-- A spider position as a byte. -/
def spiderByte (p : SpiderPos) : Byte := BitVec.ofNat 8 (spiderCode p)

/-- The arm byte of a STATUS response: the position, and bit 7 for a loaded arm (R153). -/
def armStatusByte (x : ArmStatus) : Byte := BitVec.ofNat 8 ((if x.loaded then 128 else 0) + spiderCode x.position)

/-- The frame that a stand sends for a message (R153); none for a command that is no such message. -/
def standFrameOf : Instr → Option (List Byte)
  | .accept st k arm => some (busFrame true st 0x81 (armByte arm) [kindByte k])
  | .refuse st k arm why => some (busFrame true st 0x82 (armByte arm) [kindByte k, reasonByte why])
  | .response st (.gauge arm d) =>
    some (busFrame true st 0xA0 (armByte (some arm)) (0x30 :: beBytes 2 d.toNat))
  | .response st (.status x y z) =>
    some (busFrame true st 0xA0 0 [0x31, armStatusByte x, armStatusByte y, armStatusByte z])
  | .indexDone st x y z =>
    some (busFrame true st 0x90 0 [1, spiderByte x, spiderByte y, spiderByte z])
  | .verifyDone st arm => some (busFrame true st 0x90 (armByte (some arm)) [2])
  | .armHome st => some (busFrame true st 0x90 0 [3])
  | .armLoaded st arm => some (busFrame true st 0xB0 (armByte (some arm)) [])
  | .armEmptied st arm => some (busFrame true st 0xB1 (armByte (some arm)) [])
  | .cutConfirmed st => some (busFrame true st 0xB2 0 [])
  | .queryArm st arm => some (busFrame true st 0xC0 (armByte arm) [])
  | _ => none

/-- The address, code and payload of a console command (R178, R181); none for a command that is no taken
frame. -/
def consoleParts : Instr → Option (Byte × Byte × List Byte)
  | .answerFrameSeen address code p => some (address, code, p)
  | .unknownCode address code p => some (address, code, p)
  | .enterReel address p => some (address, 0x01, p)
  | .mountReel address p => some (address, 0x02, p)
  | .prepared address p => some (address, 0x03, p)
  | .amendReel address p => some (address, 0x04, p)
  | .retireReel address p => some (address, 0x05, p)
  | .readReel address p => some (address, 0x06, p)
  | .readArm address p => some (address, 0x07, p)
  | .listReels address p => some (address, 0x08, p)
  | .threadReel address p => some (address, 0x09, p)
  | .stopReel address p => some (address, 0x0A, p)
  | .orderSplice address p => some (address, 0x10, p)
  | .confirm address p => some (address, 0x11, p)
  | .cancelOrder address p => some (address, 0x12, p)
  | .releaseOrder address p => some (address, 0x13, p)
  | .readOrder address p => some (address, 0x14, p)
  | .indexStand address p => some (address, 0x20, p)
  | .clearStand address p => some (address, 0x21, p)
  | .readStand address p => some (address, 0x22, p)
  | .readLine address p => some (address, 0x23, p)
  | .setParameter address p => some (address, 0x30, p)
  | .readParameter address p => some (address, 0x31, p)
  | .parameterRun address p => some (address, 0x32, p)
  | .data address p => some (address, 0x33, p)
  | .readChanges address p => some (address, 0x40, p)
  | .ackChanges address p => some (address, 0x41, p)
  | .scanMode address p => some (address, 0x50, p)
  | .restart address p => some (address, 0x51, p)
  | _ => none

/-- The frame of a console command. -/
def consoleFrameOf (c : Instr) : Option (List Byte) :=
  (consoleParts c).map fun x => consoleFrame x.1 x.2.1 x.2.2

/-! ## The scan slot (R153) -/

/-- The five flags of a stand slot; bits 5 to 7 are not read. -/
def slotReading (b : Byte) : SlotReading := b.setWidth 5

def SlotReading.present (r : SlotReading) : Bool := r.getLsbD 0
def SlotReading.standUnsafe (r : SlotReading) : Bool := r.getLsbD 1
def SlotReading.stopHeld (r : SlotReading) : Bool := r.getLsbD 2
def SlotReading.bid (r : SlotReading) : Bool := r.getLsbD 3
def SlotReading.moving (r : SlotReading) : Bool := r.getLsbD 4

/-- The START slot the part drives: bit 0 is the quiet-mode flag (R135, R153). -/
def startSlot (quiet : Bool) : Byte := if quiet then 1 else 0

end Sys2Proof.Machine
end

