-- ==== Sys2Proof/Machine/Queues.lean ====
section
/-! DEFINITION. The Stand Bus Controller's own operations: the request queues, withdrawal and discard, the
arbiter and the scan line (07_the_stand_bus.md). -/

namespace Sys2Proof.Machine

open Sys2Proof

/-- The drive requests (R138). -/
def isDrive : RequestKind → Bool
  | .accel | .coast | .brake => true
  | _ => false

/-- Two requests of one kind and arm; the drive requests of an arm count as one kind (R138). -/
def sameRequest (a b : Request) : Bool :=
  a.arm == b.arm && (a.kind == b.kind || (isDrive a.kind && isDrive b.kind))

/-- A request placed in a queue (R138): a drive request takes the place of the arm's other drive requests
at the tail; any other request already queued stands for both. -/
def placeRequest (r : Request) (q : List Request) : List Request :=
  if isDrive r.kind then (q.filter fun x => !sameRequest r x) ++ [r]
  else if q.any (sameRequest r) then q.map fun x => if sameRequest r x then r else x
  else q ++ [r]

/-- A request queued for a stand. -/
def queueRequest (st : StandId) (r : Request) (s : State) : State :=
  setBus s { s.bus with queues := vset s.bus.queues st (placeRequest r (vget s.bus.queues st)) }

/-- A request without a payload. -/
def plainRequest (k : RequestKind) (arm : Option Arm) : Request := ⟨k, arm, none, none⟩

/-- The pair with its request in exchange marked abandoned when it is the stand's and fits the test. -/
def abandonIf (st : StandId) (p : Request → Bool) : Pair → Pair
  | .request st' r ab lim => .request st' r (ab || (st' == st && p r)) lim
  | x => x

/-- A read of a stand's arm or spider with its limit, as an outstanding read names it. -/
def readIs (k : ReadKind) (x : OutstandingRead) : Bool := x.read == k

/-- The VERIFY of an arm withdrawn: out of the queue, or abandoned in exchange (R139). -/
def withdrawVerify (st : StandId) (arm : Arm) (s : State) : State :=
  let t : Request → Bool := fun r => r.kind == .verify && r.arm == some arm
  setBus s { s.bus with
    queues := vset s.bus.queues st ((vget s.bus.queues st).filter fun r => !t r)
    pair := abandonIf st t s.bus.pair }

/-- The GAUGE of an arm withdrawn: out of the queue, abandoned in exchange, or its outstanding read
discarded (R139). -/
def withdrawGauge (st : StandId) (arm : Arm) (s : State) : State :=
  let t : Request → Bool := fun r => r.kind == .gauge && r.arm == some arm
  setBus s { s.bus with
    queues := vset s.bus.queues st ((vget s.bus.queues st).filter fun r => !t r)
    reads := vset s.bus.reads st ((vget s.bus.reads st).filter fun x => !readIs (.gauge arm) x)
    pair := abandonIf st t s.bus.pair }

/-- An outstanding read opened; a stand holds one per kind and arm (R144). That a read already outstanding of
the kind and arm gives way to the new one, with its limit, is the model's choice (assumption log 39), and so
is the order of the list, the new read last (assumption log 47). -/
def openRead (st : StandId) (k : ReadKind) (reel : Option Nat) (s : State) : State :=
  setBus s { s.bus with
    reads := vset s.bus.reads st
      (((vget s.bus.reads st).filter fun x => !readIs k x) ++ [⟨k, reel, s.now + readLimitMs⟩]) }

/-- An outstanding read removed. -/
def closeRead (st : StandId) (k : ReadKind) (s : State) : State :=
  setBus s { s.bus with
    reads := vset s.bus.reads st ((vget s.bus.reads st).filter fun x => !readIs k x) }

/-- The stand's index record. -/
def setIndexRecord (st : StandId) (x : Option Nat) (s : State) : State :=
  setBus s { s.bus with indexes := vset s.bus.indexes st x }

/-- The stand's lapse count. -/
def setLapses (st : StandId) (n : Nat) (s : State) : State :=
  setBus s { s.bus with lapses := vset s.bus.lapses st n }

/-- The pair freed at the end of an exchange. -/
def freePair (s : State) : State := setBus s { s.bus with pair := .free }

/-- The pair is in a grant exchange with a stand. -/
def granted (s : State) (st : StandId) : Bool :=
  match s.bus.pair with
  | .grant st' _ => st' == st
  | _ => false

/-- A message sent on a grant ends it: the lapse count returns to 0 and the pair is FREE (R147). -/
def endGrant (st : StandId) (s : State) : State := freePair (setLapses st 0 s)

/-- The request of a kind is the stand's request in exchange. -/
def inExchange (s : State) (st : StandId) (k : RequestKind) : Bool :=
  match s.bus.pair with
  | .request st' r _ _ => st' == st && r.kind == k
  | _ => false

/-- The request of a kind is in the stand's queue. -/
def inQueue (s : State) (st : StandId) (k : RequestKind) : Bool :=
  (vget s.bus.queues st).any fun r => r.kind == k

/-- An INDEX is in progress: queued, in exchange, or its index record open (R145, log 15). -/
def indexInProgress (s : State) (st : StandId) : Bool :=
  inQueue s st .index || inExchange s st .index || (vget s.bus.indexes st).isSome

/-- A stand's queue emptied and its outstanding reads and index record discarded, its request in exchange
abandoned, its lapse count 0 (R168 step 2). -/
def clearStandBus (st : StandId) (s : State) : State :=
  setBus s { s.bus with
    queues := vset s.bus.queues st []
    reads := vset s.bus.reads st []
    indexes := vset s.bus.indexes st none
    lapses := vset s.bus.lapses st 0
    pair := abandonIf st (fun _ => true) s.bus.pair }

/-- The pair with its request in exchange, if any, marked abandoned. -/
def abandonAny : Pair → Pair
  | .request st r _ lim => .request st r true lim
  | x => x

/-- What RESTART does to the controller (R151). -/
def restartBus (s : State) : State :=
  setBus s { s.bus with
    queues := Vector.replicate 8 []
    reads := Vector.replicate 8 []
    lapses := Vector.replicate 8 0
    pair := abandonAny s.bus.pair }

/-! ## The arbiter (R140, R141) -/

/-- The bid set is not empty. -/
def anyBid (s : State) : Bool := (indices 8).any fun st => vget s.bus.bids st

/-- A stand has a sendable queue head. The pair is FREE at each choice, so no stand awaits an answer. -/
def sendable (s : State) (st : StandId) : Bool := !(vget s.bus.queues st).isEmpty

/-- A request turn: the first stand from the request pointer with a sendable head has it sent. -/
def requestTurn (s : State) : State :=
  match (cyclic s.bus.requestPtr).find? (sendable s) with
  | none => s
  | some st =>
    match vget s.bus.queues st with
    | [] => s
    | r :: rest =>
      setBus s { s.bus with
        queues := vset s.bus.queues st rest
        pair := .request st r false (s.now + exchangeMs)
        lastTurn := .request
        requestPtr := st + 1
        sent := requestFrame st r }

/-- A grant turn: the first bidding stand from the grant pointer is granted and leaves the bid set. -/
def grantTurn (s : State) : State :=
  match (cyclic s.bus.grantPtr).find? (fun st => vget s.bus.bids st) with
  | none => s
  | some st =>
    setBus s { s.bus with
      bids := vset s.bus.bids st false
      pair := .grant st (s.now + exchangeMs)
      lastTurn := .grant
      grantPtr := st + 1
      sent := grantFrame st }

/-- The arbiter's choice, made when the pair is FREE (R140), at the end of a step (assumption log 9). -/
def arbitrate (s : State) : State :=
  match s.bus.pair with
  | .free =>
    if s.bus.lastTurn == .request && anyBid s then grantTurn s
    else if (indices 8).any (sendable s) then requestTurn s
    else if anyBid s then grantTurn s
    else s
  | _ => s

/-! ## The scan line (R133 to R136) -/

/-- A scan started: its START slot carries the quiet-mode flag. -/
def startScan (s : State) : State := setBus s { s.bus with scan := some (startSlot s.bus.quiet) }

/-- The time at which the quiet timer ends, while it runs (R135). -/
def quietEnd (s : State) : Option Nat :=
  if s.bus.quiet && s.bus.scan.isNone then s.bus.lastEnd.map (· + quietMs) else none

/-- The readings of a scan kept, the bid set renewed, and the scan ended; in continuous mode the next scan
starts as soon as the END slot has passed (R133, R134, R136). -/
def endScan (slots : Vector Byte 8) (s : State) : State :=
  let readings : Vector SlotReading 8 := Vector.ofFn fun i => slotReading (slots[i])
  setBus s { s.bus with
    slots := readings
    bids := Vector.ofFn fun i =>
      let r : SlotReading := readings[i]
      SlotReading.present r && SlotReading.bid r
    lastEnd := some s.now
    scan := if s.bus.quiet then none else some (startSlot false) }

/-- A scan mode taken (R135, R187): a change to continuous while the line rests starts a scan at once. A
mode change before the RESET pin is released cannot arise, since no frame is collected then (R190). -/
def takeScanMode (quiet : Bool) (s : State) : State :=
  let t := setBus s { s.bus with quiet := quiet }
  if !quiet && s.bus.quiet && s.bus.scan.isNone then startScan t else t

end Sys2Proof.Machine
end

