-- ==== Sys2Proof/Machine/Verification.lean ====
section
/-! DEFINITION. Verification runs and the abort return (R23 to R28, R32): the stand operation that proves
the paste tape before a reel may be chosen. -/

namespace Sys2Proof.Machine

open Sys2Proof

/-- A run started: phase WAITING, and VERIFY queued for the arm (R24). -/
def startRun (st : StandId) (reel : Nat) (arm : Arm) (s : State) : State :=
  queueRequest st (plainRequest .verify (some arm)) (setVerify s st (some ⟨reel, arm, none⟩))

/-- A run may start for a record: PREPARED at SPLICE on an ONLINE stand whose context is IDLE (R24). -/
def mayStart (s : State) (r : ReelRecord) : Option Arm :=
  r.arm.filter fun arm =>
    r.state == .prepared && armPosition s r.stand arm == some .splice && isOnline s r.stand &&
      (vget s.verifies r.stand).isNone

/-- The run of a record started, when it may. -/
def startIfDue (r : ReelRecord) (s : State) : State :=
  match mayStart s r with
  | some arm => startRun r.stand r.reel arm s
  | none => s

/-- The run started that an adopted INDEX DONE map calls for: the arm now at SPLICE carries a PREPARED
record with verify result NONE (R24). -/
def startAtSplice (st : StandId) (s : State) : State :=
  match (spliceArm s st).bind (boundReel s st) with
  | some r => if r.verify == .untested then startIfDue r s else s
  | none => s

/-- A stand's run ended without a judgement: the context IDLE, its VERIFY withdrawn (R28, R139). -/
def endRun (st : StandId) (s : State) : State :=
  match vget s.verifies st with
  | some v => withdrawVerify st v.arm (setVerify s st none)
  | none => s

/-- The last two tape counts with a new one taken (R25). -/
def pushCount (n : Nat) : List Nat → List Nat
  | [] => [n]
  | [x] => [x, n]
  | _ :: y :: _ => [y, n]

/-- A revolution mark of the run's arm in TURNING. The interval it closes, if any, is taken when its
opening mark was taken after the ACCEPT (R25). -/
def turnMark (tapes : Option Nat) (t : Turning) : Turning :=
  match tapes, t.marked with
  | some n, true => { t with count := min 255 (t.count + 1), lastTwo := pushCount n t.lastTwo }
  | _, _ => { t with marked := true }

/-- A revolution mark of an arm at the stand's verification context. -/
def verifyMark (st : StandId) (arm : Arm) (tapes : Option Nat) (s : State) : State :=
  match vget s.verifies st with
  | some v =>
    if v.arm == arm then
      setVerify s st (some { v with turning := v.turning.map (turnMark tapes) })
    else s
  | none => s

/-- The tests of a completed run, in order (R26). -/
def judgeRun (t : Turning) : VerifyResult :=
  if t.count < 2 then .shortTurn
  else if t.lastTwo.any (· == 0) then .noTape
  else if t.lastTwo.any (fun n => decide (2 ≤ n)) then .doubleTape
  else .passed

/-- A record with its verify result; PASSED makes a PREPARED record with an outside circumference READY
(R27). -/
def withResult (v : VerifyResult) (r : ReelRecord) : ReelRecord :=
  let r' := { r with verify := v }
  if v == .passed && r.state == .prepared && r.outside.isSome then { r' with state := .ready } else r'

/-- A run that ends with its repeat mark set: no result, and a new run at once when the record is still
PREPARED at SPLICE on an ONLINE stand (R28). -/
def repeatRun (st : StandId) (reel : Nat) (s : State) : State :=
  let t := endRun st s
  match reelOf t reel with
  | some r => startIfDue r t
  | none => t

/-- A run ended with a result, which raises the stand's change flag (R26, R28). -/
def finishRun (st : StandId) (reel : Nat) (v : VerifyResult) (s : State) : State :=
  raiseStand st (modReel reel (withResult v) (endRun st s))

/-- The abort return of a committed order's new reel (R32): MOUNTED after TAPE_NOT_FOUND, else PREPARED,
with verify result NONE, and a run for a record made PREPARED where R24 allows one. -/
def abortReturn (row : OrderRow) (reason : Option OrderReason) (s : State) : State :=
  match orderReel s row row.newReel with
  | some i =>
    match vget s.reels i with
    | some r =>
      if r.state == .committed then
        let r' := { r with
          state := if reason == some .tapeNotFound then .mounted else .prepared
          verify := .untested }
        startIfDue r' (setReel s i (some r'))
      else s
    | none => s
  | none => s

end Sys2Proof.Machine
end

