-- ==== Sys2Proof/Machine/Orders.lean ====
section
/-! DEFINITION. The Order Table and the line schedules together: closing and committing an order, the commit
test, and the evaluation with its hand-off (R73 to R82, R90 to R104). A close or a commit reports to the
schedule; the number beside the state says how many evaluations it has caused, so that those caused inside a
hand-off are made after it (R104). -/

namespace Sys2Proof.Machine

open Sys2Proof

/-! ## Parts of a close -/

/-- The order tag removed from the record of one of the order's reels, when it still exists (R30). -/
def untagReel (row : OrderRow) (n : Nat) (s : State) : State :=
  match orderReel s row n with
  | some i => setReel s i ((vget s.reels i).map fun r => { r with tag := none })
  | none => s

/-- The order tag removed from both records. -/
def untagOrder (row : OrderRow) (s : State) : State :=
  untagReel row row.newReel (untagReel row row.expiring s)

/-- A row has an entry in a line's schedule. -/
def hasEntry (s : State) (l : LineId) (r : RowId) : Bool :=
  (vget s.schedules l).any fun e => e.row == r

/-- A row's entry removed (R94). -/
def removeEntry (l : LineId) (r : RowId) (s : State) : State :=
  setSchedule s l ((vget s.schedules l).filter fun e => !(e.row == r))

/-- The stand's PASTE has fired for its order. -/
def pasteFiredFor (s : State) (st : StandId) : Bool :=
  (vget s.sequencers st).any fun q => q.pasteFired

/-- The row closes before its paste boundary from a committed state (R81 step 1). -/
def abortable (s : State) (row : OrderRow) : Bool :=
  match row.state with
  | .accelerating | .matched => true
  | .pasting => !pasteFiredFor s row.stand
  | _ => false

/-- The line of a row's stand. -/
def lineOfRow (s : State) (r : RowId) : LineId :=
  match vget s.rows r with
  | some row => lineOf s row.stand
  | none => 0

/-- COAST queued at an abort (R81 step 1): not for a fault close on a LOST stand. -/
def coastUnlessLost (row : OrderRow) (faultClose : Bool) (s : State) : State :=
  if faultClose && (vget s.stands row.stand).errors.lost then s
  else queueRequest row.stand (plainRequest .coast (some row.newArm)) s

/-- Every close of an open row (R81), and how many evaluations it causes; asked for a row that has already
closed it has no effect (R82). -/
def closeRow (r : RowId) (outcome : OrderState) (reason : Option OrderReason)
    (results : Option DoneResults) (faultClose : Bool) (s : State) : State × Nat :=
  match vget s.rows r with
  | none => (s, 0)
  | some row =>
    if !row.state.isOpen then (s, 0) else
    let l := lineOf s row.stand
    let s1 := setRow s r (some { row with
      state := outcome, reason := reason, results := results, place := none, past := false })
    let s2 := if abortable s row then
        abortReturn row reason (coastUnlessLost row faultClose s1) else s1
    let s3 := if row.state.waiting then s2 else setSequencer s2 row.stand none
    let s4 := untagOrder row s3
    if hasEntry s4 l r then (raiseRow r row.stand (removeEntry l r s4), 1)
    else (raiseRow r row.stand s4, 0)

/-! ## Commit -/

/-- The settings frozen at commit (R78). -/
def frozenSettings (s : State) (st : StandId) : Frozen where
  tArm := standParam s st 4
  theta := standParam s st 5
  knifeDelay := standParam s st 6
  tolerance := standParam s st 7
  retryLimit := standParam s st 8
  pulseWidth := standParam s st 12

/-- The outside circumference of an order's new reel (R96, R107). -/
def newReelOutside (s : State) (row : OrderRow) : Nat :=
  ((reelOf s row.newReel).bind (·.outside)).getD (Config.absentOutside row.newReel)

/-- READY becomes COMMITTED, no other field altered (R30). -/
def commitReel (row : OrderRow) (s : State) : State :=
  match orderReel s row row.newReel with
  | some i => setReel s i ((vget s.reels i).map fun r =>
      if r.state == .ready then { r with state := .committed } else r)
  | none => s

/-- A row's entry made FROZEN (R91). -/
def freezeEntry (l : LineId) (r : RowId) (s : State) : State :=
  setSchedule s l ((vget s.schedules l).map fun e => if e.row == r then { e with frozen := true } else e)

/-- The match deadline (R108). -/
def matchDeadline (plate commit : Pos) (cOut a : Nat) : Pos :=
  later (back plate (2 * cOut)) (fwd commit a)

/-- ACCEL for an arm, with its target circumference. -/
def accelRequest (arm : Arm) (c : Nat) : Request := ⟨.accel, some arm, some c, none⟩

/-- The sequencer's context when it takes a committed order (R107). -/
def freshSequencer (r : RowId) (newArm : Arm) (oldArm : Option Arm) (c tol : Nat) : Sequencer where
  phase := .accelerating
  row := r
  newArm := newArm
  oldArm := oldArm
  circumference := c
  tolerance := c * tol / 1000
  accepted := false
  inRun := false
  outRun := false
  missRun := false
  cNew := none
  pasteSpeed := none
  pasteFired := false
  stub := none
  cutWait := none
  cutConfirmed := false
  retractWait := none
  retractEnded := false
  faultAfterPaste := false

/-- The commit of an order (R78, R107), and how many evaluations it causes. By R108 the deadline lies ahead
of the line position, so its watch does not report here. -/
def commitRow (r : RowId) (row : OrderRow) (place : Placement) (a : Nat) (late : Bool) (s : State) :
    State × Nat :=
  let l := lineOf s row.stand
  let pos := position s l
  let c := newReelOutside s row
  let fz := frozenSettings s row.stand
  let old := (reelOf s row.expiring).bind (·.arm)
  let s1 := freezeEntry l r (commitReel row s)
  let s2 := setRow s1 r (some { row with
    state := .accelerating, past := false, late := late, speedLow := false
    commitment := some ⟨pos, fz, matchDeadline place.plate pos c a, 0⟩ })
  let s3 := setSequencer s2 row.stand (some (freshSequencer r row.newArm old c fz.tolerance))
  let s4 := raiseRow r row.stand (queueRequest row.stand (accelRequest row.newArm c) s3)
  (s4, if hasEntry s l r then 1 else 0)

/-- The line speed is below the line's splice floor in force. -/
def belowSpliceFloor (s : State) (l : LineId) : Bool :=
  decide ((vget s.lines l).speed < (vget s.settings.floors l).splice)

/-- The commit test (R76), and how many evaluations it causes. -/
def commitTest (r : RowId) (s : State) : State × Nat :=
  match vget s.rows r with
  | none => (s, 0)
  | some row =>
    match row.state.waiting, row.place, row.distance with
    | true, some place, some a =>
      let l := lineOf s row.stand
      let atLimit := atOrAfter (position s l) (back place.plate a)
      if !row.go then
        if atLimit then closeRow r .dropped (some .notConfirmed) none false s
        else
          let s1 := setRow s r (some { row with state := .held, past := false })
          (if row.state == .held then s1 else raiseRow r row.stand s1, 0)
      else if belowSpliceFloor s l then
        if atLimit then closeRow r .dropped (some .speedLow) none false s
        else (setRow s r (some { row with state := .armed, past := true, speedLow := true }), 0)
      else commitRow r row place a atLimit s
    | _, _, _ => (s, 0)

/-- The latest-commit-point report by the row's state (R79). -/
def latestReport (r : RowId) (s : State) : State × Nat :=
  match vget s.rows r with
  | none => (s, 0)
  | some row =>
    match row.state, row.past with
    | .held, _ => closeRow r .dropped (some .notConfirmed) none false s
    | .armed, true => closeRow r .dropped (some .speedLow) none false s
    | .armed, false => commitTest r s
    | _, _ => (s, 0)

/-! ## Evaluation -/

/-- What a row holds after an evaluation's values are written into it (R73): the placement, SPACING_SHORT
and A; a row whose new commit point is not reached is no longer past. -/
def placedRow (pos : Pos) (e : Entry) (row : OrderRow) : OrderRow :=
  let row' := { row with
    place := some e.place, distance := some e.distance, spacingShort := e.spacingShort }
  if atOrAfter pos (back e.place.q e.distance) then row'
  else { row' with state := .armed, past := false, speedLow := if row.past then false else row.speedLow }

/-- One entry's values handed to the Order Table (R73). The watches set on targets already passed report at
once (R2): the commit point of a row not past, then the latest commit point of a row still waiting. -/
def handOff (l : LineId) (acc : State × Nat) (e : Entry) : State × Nat :=
  let (s, n) := acc
  match vget s.rows e.row with
  | none => (s, n)
  | some row =>
    if !row.state.waiting then (s, n)
    else
      let pos := position s l
      let row' := placedRow pos e row
      let s1 := setRow s e.row (some row')
      let s2 := if row.state == .held && row'.state == .armed then raiseRow e.row row.stand s1 else s1
      let reached := atOrAfter pos (back e.place.q e.distance)
      let atLimit := atOrAfter pos (back e.place.plate e.distance)
      if reached && row'.state == .armed && !row'.past then
        let p := commitTest e.row s2
        (p.1, n + p.2)
      else if atLimit then
        let p := latestReport e.row s2
        (p.1, n + p.2)
      else (s2, n)

/-- An entry with the positions its stand's tracker answers; FROZEN entries and entries whose tracker has
none keep theirs (R96). -/
def refreshEntry (s : State) (e : Entry) : Entry :=
  if e.frozen then e
  else match splicePositions s e.stand with
    | some (pp, pl) => { e with place := { e.place with ppref := pp, plate := pl } }
    | none => e

/-- An entry with its commit distance (R101). -/
def withDistance (s : State) (v : Nat) (e : Entry) : Entry :=
  match vget s.rows e.row with
  | some row => { e with distance := commitDistance v (standParam s e.stand 3) (newReelOutside s row) }
  | none => e

/-- The PLACED entries of a line as an evaluation places them, in the order it takes them (R96 to R101). -/
def placedEntries (l : LineId) (s : State) : List Entry :=
  let fresh := (vget s.schedules l).map (refreshEntry s)
  let frozen := fresh.filter (·.frozen)
  let taken := takingOrder (position s l) (fresh.filter (!·.frozen))
  (placeAll (spacingSteps s l) (frozen.map (·.place.q)) taken).map
    (withDistance s (vget s.lines l).speed)

/-- An entry of the list is short that was not short before (R100). -/
def newlyShort (before after : List Entry) : Bool :=
  after.any fun e => e.spacingShort && before.any fun b => b.row == e.row && !b.spacingShort

/-- One evaluation (R95 to R101), and how many evaluations its hand-off causes. -/
def evalOnce (l : LineId) (s : State) : State × Nat :=
  let old := vget s.schedules l
  let placed := placedEntries l s
  let s1 := setSchedule s l (old.filter (·.frozen) ++ placed)
  let s2 := if newlyShort old placed then raiseLine l s1 else s1
  placed.foldl (handOff l) (s2, 0)

/-- The PLACED entries of a line. Each evaluation after the first is caused by one of them leaving that kind,
so their number bounds the rounds (R104). -/
def placedCount (s : State) (l : LineId) : Nat := ((vget s.schedules l).filter (!·.frozen)).length

/-- Evaluations made one after another until none is due (R104). -/
def evalRounds : Nat → Nat → LineId → State → State
  | 0, _, _, s => s
  | _ + 1, 0, _, s => s
  | fuel + 1, due + 1, l, s =>
    let p := evalOnce l s
    evalRounds fuel (due + p.2) l p.1

/-- The evaluations of a line that are due, and those they cause. -/
def settle (l : LineId) (due : Nat) (s : State) : State := evalRounds (due + placedCount s l) due l s

/-- One evaluation of a line, and those it causes (R95). -/
def evaluate (l : LineId) (s : State) : State := settle l 1 s

/-- A row's close with the evaluation it causes. -/
def closeOrder (r : RowId) (outcome : OrderState) (reason : OrderReason) (faultClose : Bool)
    (s : State) : State :=
  let p := closeRow r outcome (some reason) none faultClose s
  settle (lineOfRow s r) p.2 p.1

/-- A row's commit test with the evaluations it causes. -/
def testOrder (r : RowId) (s : State) : State :=
  let p := commitTest r s
  settle (lineOfRow s r) p.2 p.1

/-- The entry of a new member, with the positions its tracker answers (R90). -/
def newEntry (s : State) (r : RowId) (st : StandId) : Option Entry :=
  (splicePositions s st).map fun p => ⟨r, st, false, ⟨p.1, p.2, p.1⟩, false, 0⟩

/-- The order of a stand joins its line's schedule and the schedule evaluates (R71, R90). -/
def joinSchedule (r : RowId) (st : StandId) (s : State) : State :=
  let l := lineOf s st
  match newEntry s r st with
  | some e => evaluate l (setSchedule s l (vget s.schedules l ++ [e]))
  | none => evaluate l s

/-- A stand's new positions handed to its line's schedule: an evaluation when it has a PLACED entry (R95). -/
def handPositions (st : StandId) (s : State) : State :=
  let l := lineOf s st
  if (vget s.schedules l).any fun e => e.stand == st && !e.frozen then evaluate l s else s

end Sys2Proof.Machine
end

