-- ==== Sys2Proof/Machine/Tracking.lean ====
section
/-! DEFINITION. The reel trackers: samples, HOLD, FAULT, recovery, the RUNOUT check, and the start and end of
a run (R45 to R67). -/

namespace Sys2Proof.Machine

open Sys2Proof

/-- A change of a stand's tracker. -/
def modTracker (st : StandId) (f : Tracker → Tracker) (s : State) : State :=
  setTracker s st ((vget s.trackers st).map f)

/-- The RUNOUT check (R58): R_mark present, runout held clear, and an extrapolated remaining length of 0 at
the line position. RUNOUT going from clear to set raises the stand's change flag. -/
def runoutCheck (st : StandId) (s : State) : State :=
  match vget s.trackers st with
  | none => s
  | some t =>
    if t.mark.isSome && !t.runoutHeld && extrapolated t (standPos s st) == some 0 then
      let wasSet := (reelOf s t.reel).any (·.runout)
      let s1 := modReel t.reel (fun r => { r with runout := true, remaining := some 0 })
        (setTracker s st (some { t with runoutHeld := true }))
      if wasSet then s1 else raiseStand st s1
    else s

/-- Steps 3 to 8 of an accepted sample (R52): `t` is the tracker after steps 1 and 2, `c` the sample and `p`
its mark position. -/
def finishSample (st : StandId) (t : Tracker) (c : Nat) (p : Pos) (s : State) : State :=
  match reelOf s t.reel with
  | none => s
  | some r =>
    let d := decrementOf (nominalDecrement (caliperOf s r)) t.window
    let full := decide (32 ≤ t.window.length)
    let rem := remainingAt c r.core d.1
    let s1 := setTracker s st (some { t with
      state := if full then .learned else .tracking
      delta := some d.1
      mark := some ⟨p, rem⟩
      runoutHeld := false
      clampReported := t.clampReported || d.2 })
    let s2 := modReel t.reel (fun r => { r with
      current := some c
      remaining := some rem
      learned := if full then some d.1 else none
      runout := rem == 0
      clamped := d.2 }) s1
    let s3 := if (rem == 0 && !r.runout) || (d.2 && !t.clampReported) then raiseStand st s2 else s2
    handPositions st s3

/-- A window with a sample appended, the oldest removed when it would hold 33 (R53). -/
def pushSample (w : List Nat) (c : Nat) : List Nat :=
  if w.length < 32 then w ++ [c] else w.tail ++ [c]

/-- An accepted sample (R52). -/
def acceptSample (st : StandId) (t : Tracker) (c : Nat) (p : Pos) (s : State) : State :=
  finishSample st { t with
    window := pushSample t.window c, cPrev := some c, rejects := 0, relaxed := false } c p s

/-- A tracker that enters FAULT (R51). -/
def faultedTracker (t : Tracker) : Tracker :=
  { t with state := .fault, window := [], rejects := 0, candidate := none, relaxed := false }

/-- A rejected sample (R51). -/
def rejectSample (st : StandId) (t : Tracker) (s : State) : State :=
  if t.rejects + 1 < 3 then setTracker s st (some { t with rejects := t.rejects + 1 })
  else
    raiseStand st (modReel t.reel (fun r => { r with
      trackingFault := true
      learned := if t.state == .learned then none else r.learned })
      (setTracker s st (some (faultedTracker t))))

/-- The recovery from FAULT with a sample consistent with the candidate (R64). -/
def recover (st : StandId) (t : Tracker) (candidate c : Nat) (p : Pos) (s : State) : State :=
  finishSample st { t with
      window := [candidate, c], cPrev := some c, candidate := none, rejects := 0, state := .tracking }
    c p (modReel t.reel (fun r => { r with trackingFault := false }) s)

/-- A recovery sample (R64). One that does not recover the tracker is an interval not accepted, at which the
RUNOUT check is made (R58). -/
def recoverySample (st : StandId) (t : Tracker) (c : Nat) (p : Pos) (s : State) : State :=
  match reelOf s t.reel with
  | none => s
  | some r =>
    if !firstBound r.core c then runoutCheck st (setTracker s st (some { t with candidate := none }))
    else
      match t.candidate with
      | none => runoutCheck st (setTracker s st (some { t with candidate := some c }))
      | some k =>
        if gap c k ≤ recoveryTolerance (nominalDecrement (caliperOf s r)) then recover st t k c p s
        else runoutCheck st (setTracker s st (some { t with candidate := some c }))

/-- A closed interval at the stand's tracker (R49, R50, R58). -/
def trackerInterval (st : StandId) (arm : Arm) (w : Nat) (p : Pos) (s : State) : State :=
  match vget s.trackers st with
  | none => s
  | some t =>
    if t.arm == arm then
      match t.state with
      | .hold => runoutCheck st s
      | .fault => recoverySample st t w p s
      | .warming | .tracking | .learned =>
        match reelOf s t.reel with
        | none => s
        | some r =>
          if plausible t r.core w then acceptSample st t w p s
          else runoutCheck st (rejectSample st t s)
    else s

/-- A tracker that enters HOLD (R61). -/
def heldTracker (t : Tracker) : Tracker := { t with state := .hold, window := [], rejects := 0 }

/-- A tracker that leaves HOLD (R62). -/
def resumedTracker (t : Tracker) : Tracker :=
  { t with
    state := if t.mark.isSome then .tracking else .warming
    window := [], rejects := 0, relaxed := true }

/-- HOLD entered or left at a window end (R61, R62). FAULT stays (R63). -/
def holdTest (st : StandId) (v floor : Nat) (s : State) : State :=
  match vget s.trackers st with
  | none => s
  | some t =>
    match t.state with
    | .fault => s
    | .hold => if v < floor then s else setTracker s st (some (resumedTracker t))
    | .warming | .tracking => if v < floor then setTracker s st (some (heldTracker t)) else s
    | .learned =>
      if v < floor then
        modReel t.reel (fun r => { r with learned := none }) (setTracker s st (some (heldTracker t)))
      else s

/-- A window end at a stand's tracker: the HOLD test and the RUNOUT check (R58, R61, R62). -/
def trackerWindowEnd (st : StandId) (v floor : Nat) (s : State) : State :=
  runoutCheck st (holdTest st v floor s)

/-- A run started (R46, R47). -/
def startTracker (st : StandId) (reel : Nat) (arm : Arm) (cPrev : Option Nat) (s : State) : State :=
  setTracker s st (some (freshTracker reel arm cPrev))

/-- A run ended: the tracker IDLE (R48). -/
def stopTracker (st : StandId) (s : State) : State := setTracker s st none

end Sys2Proof.Machine
end

