-- ==== Sys2Proof/Machine/Splicing.lean ====
section
/-! DEFINITION. The splice sequencers: match, retry, tape search, fire positions, PASTE and KNIFE, and the
closing (R106 to R132). -/

namespace Sys2Proof.Machine

open Sys2Proof

/-- A change of a stand's sequencer. -/
def modSequencer (st : StandId) (f : Sequencer → Sequencer) (s : State) : State :=
  setSequencer s st ((vget s.sequencers st).map f)

/-- A change that the sequencer reports to its row, which the Order Table writes in the committed states
(04_splice_orders.md, "Order states"). -/
def modRow (r : RowId) (f : OrderRow → OrderRow) (s : State) : State :=
  match vget s.rows r with
  | some row => if row.state.committed then setRow s r (some (f row)) else s
  | none => s

/-- The state the sequencer reports written into its row, which raises the row's flag (R81, R132). -/
def writeRowState (r : RowId) (st : StandId) (x : OrderState) (s : State) : State :=
  raiseRow r st (modRow r (fun row => { row with state := x }) s)

/-- An interval is in tolerance (R110). -/
def inTolerance (q : Sequencer) (w : Nat) : Bool :=
  decide (q.circumference ≤ w + q.tolerance) && decide (w ≤ q.circumference + q.tolerance)

/-- A close the sequencer asks for, with its own release (R127). -/
def sequencerClose (q : Sequencer) (why : OrderReason) (s : State) : State :=
  closeOrder q.row .failed why false s

/-- The match deadline of the sequencer's order has been reached (R108, R111). -/
def deadlineReached (s : State) (st : StandId) (q : Sequencer) : Bool :=
  ((vget s.rows q.row).bind (·.commitment)).any fun c => atOrAfter (standPos s st) c.deadline

/-- A match revolution in ACCELERATING (R110). -/
def accelInterval (st : StandId) (q : Sequencer) (w : Nat) (s : State) : State :=
  if !q.accepted then s
  else if inTolerance q w then
    if q.inRun then
      writeRowState q.row st .matched (setSequencer s st (some { q with
        phase := .matched, inRun := false, outRun := false, missRun := false }))
    else setSequencer s st (some { q with inRun := true })
  else setSequencer s st (some { q with inRun := false })

/-- A retry after a match loss (R114): ACCEL queued again, ACCELERATING again, and the deadline watch set
again, which reports at once when the line has already passed it. -/
def retryMatch (st : StandId) (q : Sequencer) (s : State) : State :=
  let s1 := modRow q.row (fun row => { row with
    commitment := row.commitment.map fun c => { c with retries := c.retries + 1 } }) s
  let s2 := queueRequest st (accelRequest q.newArm q.circumference) s1
  let s3 := setSequencer s2 st (some { q with
    phase := .accelerating, accepted := false, inRun := false, outRun := false, missRun := false })
  let s4 := writeRowState q.row st .accelerating s3
  if deadlineReached s4 st q then sequencerClose q .accelTimeout s4 else s4

/-- A match loss (R114). -/
def matchLoss (st : StandId) (q : Sequencer) (s : State) : State :=
  match (vget s.rows q.row).bind (·.commitment) with
  | none => s
  | some c =>
    if c.retries < c.frozen.retryLimit then retryMatch st q s else sequencerClose q .matchLost s

/-- A tape-search revolution (R115), with the out-of-tolerance run as the match judgement left it. -/
def tapeRevolution (st : StandId) (q : Sequencer) (tapes : Nat) (s : State) : State :=
  if tapes == 0 then
    if q.missRun then sequencerClose q .tapeNotFound s
    else setSequencer s st (some { q with missRun := true })
  else setSequencer s st (some { q with missRun := false })

/-- An interval in MATCHED: first a match revolution, then a tape-search revolution (R113). -/
def matchedInterval (st : StandId) (q : Sequencer) (w tapes : Nat) (s : State) : State :=
  if inTolerance q w then tapeRevolution st { q with outRun := false } tapes s
  else if q.outRun then matchLoss st q s
  else tapeRevolution st { q with outRun := true } tapes s

/-- A closed interval at the stand's sequencer (R8, R110, R113, R130). -/
def sequencerInterval (st : StandId) (arm : Arm) (w tapes : Nat) (s : State) : State :=
  match vget s.sequencers st with
  | none => s
  | some q =>
    if q.newArm == arm then
      match q.phase with
      | .accelerating => accelInterval st q w s
      | .matched => matchedInterval st q w tapes s
      | .pasting | .closing => s
    else s

/-- The sequencer's SPEED_LOW test at a window end (R112). -/
def sequencerWindowEnd (st : StandId) (s : State) : State :=
  match vget s.sequencers st with
  | none => s
  | some q =>
    match q.phase with
    | .accelerating | .matched =>
      if belowSpliceFloor s (lineOf s st) then sequencerClose q .speedLow s else s
    | .pasting | .closing => s

/-! ## Fire positions (R117, R118) -/

/-- The web length from the tape mark to the nip (R117). -/
def tapeToNip (cNew theta : Nat) : Nat := cNew * theta / 3600

/-- The web fed during the travel of the paste arm (R117). -/
def pasteLead (v tArm : Nat) : Nat := v * tArm / 1000

/-- The smallest k for which Dn + k × C_new − L is the guard of 200 or more (R118). -/
def revolutionsAdded (dn cNew lead : Nat) : Nat := (lead + pasteGuard - dn + cNew - 1) / cNew

/-- The fire positions from the tape mark (R118). -/
def firePositions (pt : Pos) (cNew v : Nat) (fz : Frozen) : FirePositions :=
  let dn := tapeToNip cNew fz.theta
  let lead := pasteLead v fz.tArm
  let k := revolutionsAdded dn cNew lead
  let pn := fwd pt (dn + k * cNew)
  ⟨pt, back pn lead, pn, fwd pn fz.knifeDelay, k⟩

/-! ## The knife (R120, R121) -/

/-- The stub estimate at Pk: what the tracker gives for the expiring reel, absent when the reel is gone. -/
def stubAtKnife (s : State) (st : StandId) (row : OrderRow) (pk : Pos) : Option Nat :=
  match orderReel s row row.expiring, vget s.trackers st with
  | some _, some t => if t.reel == row.expiring then extrapolated t pk else none
  | _, _ => none

/-- The old reel RUNNING becomes EXPIRED with its stub estimate (R31). -/
def expireOld (row : OrderRow) (stub : Option Nat) (s : State) : State :=
  match orderReel s row row.expiring with
  | some i => setReel s i ((vget s.reels i).map fun r =>
      if r.state == .running then
        { r with state := .expired, remaining := stub, learned := none } else r)
  | none => s

/-- The new reel COMMITTED becomes RUNNING and the tracker takes it; with the new reel freed the tracker is
IDLE (R31, R47). A third reel that was threaded on the stand after the paste, which the manual does not treat,
stays RUNNING without the tracker: the model's choice (assumption log 45). -/
def runNew (st : StandId) (row : OrderRow) (arm : Arm) (cNew : Option Nat) (s : State) : State :=
  match orderReel s row row.newReel with
  | some i => startTracker st row.newReel arm cNew (setReel s i ((vget s.reels i).map fun r =>
      if r.state == .committed then
        { r with state := .running, current := none, remaining := none, learned := none,
                 runout := false, clamped := false, trackingFault := false }
      else r))
  | none => stopTracker st s

/-- BRAKE for the old arm and then RETRACT, queued unless the stand is LOST (R121 step 4). -/
def queueBraking (st : StandId) (q : Sequencer) (s : State) : State :=
  let s1 := match q.oldArm with
    | some arm => queueRequest st (plainRequest .brake (some arm)) s
    | none => s
  queueRequest st (plainRequest .retract none) s1

/-- The knife: the output, the knife change and the move into CLOSING (R120, R121). -/
def fireKnife (st : StandId) (s : State) : State :=
  match vget s.sequencers st with
  | none => s
  | some q =>
    match vget s.rows q.row with
    | none => s
    | some row =>
      match row.fire, row.commitment with
      | some f, some c =>
        let l := lineOf s st
        let lost := (vget s.stands st).errors.lost
        let stub := stubAtKnife s st row f.pk
        let s1 := fireOutput st .knife c.frozen.pulseWidth s
        let s2 := runNew st row q.newArm q.cNew (expireOld row stub s1)
        let had := hasEntry s2 l q.row
        let s3 := removeEntry l q.row s2
        let s4 := if had then evaluate l s3 else s3
        let s5 := writeRowState q.row st .closing s4
        let s6 := setSequencer s5 st (some { q with
          phase := .closing
          stub := stub
          cutConfirmed := false
          cutWait := some (s.now + cutWaitMs)
          retractEnded := lost
          retractWait := some (s.now + retractWaitMs) })
        if lost then s6 else queueBraking st q s6
      | _, _ => s

/-- The paste: PASTE fired, the paste boundary crossed, and the Pk watch set, which reports at once when Pk
is already passed (R119). -/
def firePaste (st : StandId) (s : State) : State :=
  match vget s.sequencers st with
  | none => s
  | some q =>
    match (vget s.rows q.row).bind (·.fire), (vget s.rows q.row).bind (·.commitment) with
    | some f, some c =>
      let s1 := setSequencer (fireOutput st .paste c.frozen.pulseWidth s) st
        (some { q with pasteFired := true })
      if atOrAfter (standPos s1 st) f.pk then fireKnife st s1 else s1
    | _, _ => s

/-- A tape mark that starts PASTING (R116 to R118). The Pp watch reports at once when Pp is passed. -/
def startPasting (st : StandId) (q : Sequencer) (w : Nat) (pt : Pos) (c : Commitment) (s : State) :
    State :=
  let v := standSpeed s st
  let f := firePositions pt w v c.frozen
  let s1 := modRow q.row (fun row => { row with fire := some f }) s
  let s2 := setSequencer s1 st (some { q with
    phase := .pasting, cNew := some w, pasteSpeed := some v, pasteFired := false,
    faultAfterPaste := false })
  let s3 := writeRowState q.row st .pasting s2
  if atOrAfter (standPos s3 st) f.pp then firePaste st s3 else s3

/-- A tape mark at the stand's sequencer, attributed to an arm (R10, R116). -/
def sequencerTape (st : StandId) (arm : Arm) (pt : Pos) (s : State) : State :=
  match vget s.sequencers st with
  | none => s
  | some q =>
    if q.phase == .matched && q.newArm == arm then
      match (armContext s st arm).lastInterval, (vget s.rows q.row).bind (·.place),
          (vget s.rows q.row).bind (·.commitment) with
      | some w, some p, some c =>
        if inTolerance q w && atOrAfter pt (back p.q w) then startPasting st q w pt c s else s
      | _, _, _ => s
    else s

/-! ## Closing (R122 to R125) -/

/-- The cut part of the closing is met (R122). -/
def cutMet (q : Sequencer) : Bool := q.cutConfirmed || q.cutWait.isNone

/-- The order closed DONE once the cut part is met and retract ended is yes (R125). -/
def tryCloseDone (st : StandId) (s : State) : State :=
  match vget s.sequencers st with
  | none => s
  | some q =>
    if q.phase == .closing && cutMet q && q.retractEnded then
      match (vget s.rows q.row).bind (·.fire) with
      | some f =>
        (closeRow q.row .done none
          (some ⟨f.pn, q.stub, q.cutConfirmed, q.faultAfterPaste⟩) false s).1
      | none => s
    else s

/-- The end of RETRACT taken in CLOSING while retract ended is no (R123). -/
def endRetract (st : StandId) (s : State) : State :=
  tryCloseDone st (modSequencer st (fun q => { q with retractEnded := true, retractWait := none }) s)

/-- The sequencer is in CLOSING with retract ended no. -/
def awaitsRetract (s : State) (st : StandId) : Bool :=
  (vget s.sequencers st).any fun q => q.phase == .closing && !q.retractEnded

/-- The end of the retract wait (R123). While retract ended is no it is an end of RETRACT, with RETRACT_TIMEOUT
recorded; on a stand that was LOST at the knife retract ended is yes from the knife (R121 step 4), and the wait
is then over with no more effect (assumption log 23). -/
def endRetractWait (st : StandId) (s : State) : State :=
  if awaitsRetract s st then endRetract st (writeOutcome st .retractTimeout s)
  else modSequencer st (fun q => { q with retractWait := none }) s

/-- The sequencer is in CLOSING with its cut wait running. -/
def awaitsCut (s : State) (st : StandId) : Bool :=
  (vget s.sequencers st).any fun q => q.phase == .closing && q.cutWait.isSome

end Sys2Proof.Machine
end

