-- ==== Sys2Proof/Machine/Supervision.lean ====
section
/-! DEFINITION. The Stand Supervisor: conditions, hard errors, the stop hold, the spider map, the arm reports
and what they do to records and orders (R37, R38, R154 to R168). -/

namespace Sys2Proof.Machine

open Sys2Proof

/-- A change of a stand context. -/
def modStand (st : StandId) (f : StandContext → StandContext) (s : State) : State :=
  setStand s st (f (vget s.stands st))

/-- A hard error is held in a set. -/
def holdsError (h : HardErrors) : HardError → Bool
  | .standUnsafe => h.standUnsafe
  | .lost => h.lost
  | .noReply => h.noReply
  | .indexTimeout => h.indexTimeout
  | .indexMismatch => h.indexMismatch
  | .armFault => h.armFault

/-- A hard error added to a set. -/
def addError (e : HardError) (h : HardErrors) : HardErrors :=
  match e with
  | .standUnsafe => { h with standUnsafe := true }
  | .lost => { h with lost := true }
  | .noReply => { h with noReply := true }
  | .indexTimeout => { h with indexTimeout := true }
  | .indexMismatch => { h with indexMismatch := true }
  | .armFault => { h with armFault := true }

/-- The sequencer of a stand whose PASTE has fired, or that is CLOSING, marks fault after paste (R129). -/
def markFaultAfterPaste (st : StandId) (s : State) : State :=
  modSequencer st (fun q => { q with faultAfterPaste := true }) s

/-- A stand that leaves service acts on its open order by the order's state (R163, R165, R129). -/
def faultOrder (st : StandId) (why : OrderReason) (s : State) : State :=
  match openRow s st with
  | none => s
  | some r =>
    match vget s.rows r with
    | none => s
    | some row =>
      match row.state with
      | .armed | .held | .accelerating | .matched => closeOrder r .failed why true s
      | .pasting =>
        if pasteFiredFor s st then markFaultAfterPaste st s else closeOrder r .failed why true s
      | .closing => markFaultAfterPaste st s
      | .done | .failed | .dropped | .cancelled => s

/-- A stand that enters FAULT or LOCKED_OUT, handled in one event (R163, R165). -/
def leaveService (st : StandId) (c : Condition) (why : OrderReason) (s : State) : State :=
  faultOrder st why (endRun st (raiseStand st
    (modStand st (fun x => { x with condition := c, stopHold := none }) s)))

/-- A stand takes a hard error, by its condition (R162). -/
def takeHardError (st : StandId) (e : HardError) (s : State) : State :=
  let x := vget s.stands st
  match x.condition with
  | .offline => s
  | .online =>
    leaveService st .fault .standFault
      (setStand s st { x with errors := addError e x.errors })
  | .fault | .lockedOut =>
    if holdsError x.errors e then s
    else raiseStand st (setStand s st { x with errors := addError e x.errors })

/-- A stand goes ONLINE (R155): STATUS queued, the stop hold started when the reading shows STOP_HELD, the
change flag raised. -/
def goOnline (st : StandId) (r : SlotReading) (s : State) : State :=
  raiseStand st (queueRequest st (plainRequest .status none)
    (modStand st (fun x => { x with
      condition := .online
      misses := 0
      stopHold := if SlotReading.stopHeld r then some (s.now + stopHoldMs) else none }) s))

/-- PRESENT of a reading (R156). -/
def readPresent (st : StandId) (r : SlotReading) (s : State) : State :=
  let x := vget s.stands st
  if SlotReading.present r then setStand s st { x with misses := 0 }
  else if x.errors.lost then setStand s st { x with misses := 0 }
  else if x.misses + 1 < 3 then setStand s st { x with misses := x.misses + 1 }
  else takeHardError st .lost (setStand s st { x with misses := 0 })

/-- UNSAFE of a reading (R156). -/
def readUnsafe (st : StandId) (r : SlotReading) (s : State) : State :=
  if SlotReading.standUnsafe r then takeHardError st .standUnsafe s else s

/-- STOP_HELD of a reading of an ONLINE stand (R164); without PRESENT it reads as inactive. -/
def readStopHeld (st : StandId) (r : SlotReading) (s : State) : State :=
  let x := vget s.stands st
  if x.condition == .online then
    if SlotReading.present r && SlotReading.stopHeld r then
      match x.stopHold with
      | some _ => s
      | none => setStand s st { x with stopHold := some (s.now + stopHoldMs) }
    else setStand s st { x with stopHold := none }
  else s

/-- A stand's slot reading at the Stand Supervisor (R155, R156). -/
def takeReading (st : StandId) (r : SlotReading) (s : State) : State :=
  if (vget s.stands st).condition == .offline then
    if SlotReading.present r && !SlotReading.standUnsafe r then goOnline st r s else s
  else readStopHeld st r (readUnsafe st r (readPresent st r s))

/-! ## Arm reports (R37, R38, R159, R166) -/

/-- A record unbound from its arm: STAGED, verify result NONE, no tag (R38). -/
def unboundRecord (r : ReelRecord) : ReelRecord :=
  { r with state := .staged, arm := none, verify := .untested, tag := none }

/-- The stand's verification run ended when it is the record's (R28). -/
def endRunOf (st : StandId) (reel : Nat) (s : State) : State :=
  if (vget s.verifies st).any fun v => v.reel == reel then endRun st s else s

/-- The waiting order whose new reel has been removed is closed FAILED(NEW_REEL_REMOVED) (R38). -/
def newReelRemoved (tag : Option Nat) (s : State) : State :=
  match tag.bind (rowOfTag s) with
  | some r => closeOrder r .failed .newReelRemoved false s
  | none => s

/-- An arm reported emptied, at the Reel Table (R38). The gauge read of the arm is abandoned, whether or not a
record is bound to it (R22, R139). The flag says that the stand takes ARM_FAULT. -/
def reelEmptied (st : StandId) (arm : Arm) (s : State) : State × Bool :=
  let s1 := withdrawGauge st arm s
  match boundSlot s st arm with
  | none => (s1, false)
  | some i =>
    match vget s.reels i with
    | none => (s1, false)
    | some r =>
      match r.state with
      | .expired => (setReel s1 i none, false)
      | .committed => (setReel s1 i none, true)
      | .running => (stopTracker st (setReel s1 i none), true)
      | .staged | .mounted | .prepared | .ready =>
        (newReelRemoved r.tag (endRunOf st r.reel (setReel s1 i (some (unboundRecord r)))), false)

/-- The loaded flag of an arm. -/
def setLoaded (st : StandId) (arm : Arm) (b : Bool) (s : State) : State :=
  modStand st (fun x => { x with loaded := armSet x.loaded arm b }) s

/-- An arm reported emptied: the record, the loaded flag, and ARM_FAULT, in that order (R166). -/
def armReportedEmpty (st : StandId) (arm : Arm) (s : State) : State :=
  let p := reelEmptied st arm s
  let s1 := setLoaded st arm false p.1
  if p.2 then takeHardError st .armFault s1 else s1

/-! ## The spider map (R157, R161) -/

/-- A map is well made: one arm at each of LOAD, SPLICE and RUN. -/
def wellMade (m : PerArm SpiderPos) : Bool := m.a != m.b && m.b != m.c && m.a != m.c

/-- One step along LOAD → SPLICE → RUN → LOAD. -/
def nextPosition : SpiderPos → SpiderPos
  | .load => .splice
  | .splice => .run
  | .run => .load

/-- The one-step rotation of a map. -/
def rotated (m : PerArm SpiderPos) : PerArm SpiderPos :=
  ⟨nextPosition m.a, nextPosition m.b, nextPosition m.c⟩

/-- A map adopted: the tape counts cleared (R11), and a run whose arm is no longer at SPLICE ended (R28). -/
def adoptMap (st : StandId) (m : PerArm SpiderPos) (s : State) : State :=
  let s1 := clearTapeCounts st (modStand st (fun x => { x with map := some m }) s)
  match vget s1.verifies st with
  | some v => if armGet m v.arm == .splice then s1 else endRun st s1
  | none => s1

/-- A STATUS map shows the new arm of the stand's open order away from SPLICE before its PASTE (R157). -/
def movesNewArm (st : StandId) (m : PerArm SpiderPos) (s : State) : Bool :=
  ((openRow s st).bind fun r => vget s.rows r).any fun row =>
    armGet m row.newArm != .splice &&
      (row.state.waiting || abortable s row)

/-- One arm of a STATUS response (R157): an arm shown not loaded is reported emptied when a record is bound
to it (R37). -/
def takeArmStatus (st : StandId) (arm : Arm) (x : ArmStatus) (s : State) : State :=
  if x.loaded || (boundSlot s st arm).isNone then setLoaded st arm x.loaded s
  else armReportedEmpty st arm s

/-- A STATUS response (R157): the map, the loaded flags, the outcome, and INDEX_MISMATCH when the adopted map
moves an open order's new arm. -/
def takeStatus (st : StandId) (a b c : ArmStatus) (s : State) : State :=
  let m : PerArm SpiderPos := ⟨a.position, b.position, c.position⟩
  let good := wellMade m
  let s1 := if good then adoptMap st m s else s
  let s2 := takeArmStatus st .c c (takeArmStatus st .b b (takeArmStatus st .a a s1))
  let s3 := writeOutcome st (if good then .statusDone else .statusBadMap) s2
  if good && movesNewArm st m s3 then takeHardError st .indexMismatch s3 else s3

/-- INDEX DONE with its map (R161). -/
def takeIndexDone (st : StandId) (m : PerArm SpiderPos) (s : State) : State :=
  let held := (vget s.stands st).map
  if !wellMade m then
    takeHardError st .indexMismatch (writeOutcome st .indexMismatch s)
  else
    let s1 := startAtSplice st (adoptMap st m s)
    match held with
    | none => writeOutcome st .indexDone s1
    | some old =>
      if m == rotated old then writeOutcome st .indexDone s1
      else takeHardError st .indexMismatch (writeOutcome st .indexMismatch s1)

/-! ## CLEAR STAND (R168) -/

/-- Steps 1 to 3 of CLEAR STAND. -/
def clearContexts (st : StandId) (s : State) : State :=
  setVerify (clearStandBus st (modStand st (fun x => { x with
    errors := noErrors, misses := 0, stopHold := none }) s)) st none

/-- Step 4 of CLEAR STAND: ONLINE or OFFLINE by the last slot reading. -/
def settleCondition (st : StandId) (s : State) : State :=
  let r := vget s.bus.slots st
  let was := (vget s.stands st).condition
  if SlotReading.present r then goOnline st r s
  else
    let s1 := modStand st (fun x => { x with condition := .offline }) s
    match was with
    | .offline => s1
    | .online => faultOrder st .standFault (raiseStand st s1)
    | .fault | .lockedOut => raiseStand st s1

end Sys2Proof.Machine
end

