-- ==== Sys2Proof/Machine/Store.lean ====
section
/-! DEFINITION. The Settings Store: parameter writes with their clamps and what a write causes, reads, and
the floors in force (R171 to R175). -/

namespace Sys2Proof.Machine

open Sys2Proof

/-- A value clamped to the nearer end of its range (R172). -/
def clampTo (p : ParamSpec) (v : Nat) : Nat := max p.lo (min p.hi v)

/-- The target a target kind and number name; none when it is out of range (R172, R181). -/
def targetOf (kind number : Nat) : Option Target :=
  match kind with
  | 0 => if h : 1 ≤ number ∧ number ≤ 8 then some (.stand ⟨number - 1, by omega⟩) else none
  | 1 => if h : 1 ≤ number ∧ number ≤ 4 then some (.line ⟨number - 1, by omega⟩) else none
  | _ => none

/-- The value held for a parameter; 0 for an unused index (R172). -/
def readParam (s : State) : Target → Nat → Nat
  | .stand st, i => if h : i < 14 then standParam s st ⟨i, h⟩ else 0
  | .line l, i => if h : i < 4 then lineParam s l ⟨i, h⟩ else 0

/-- A value stored for a stand parameter. -/
def storeStand (st : StandId) (i : Fin 14) (v : Nat) (s : State) : State :=
  setSettings s { s.settings with
    stands := vset s.settings.stands st (vset (vget s.settings.stands st) i v) }

/-- A value stored for a line parameter. -/
def storeLine (l : LineId) (i : Fin 4) (v : Nat) (s : State) : State :=
  setSettings s { s.settings with
    lines := vset s.settings.lines l (vset (vget s.settings.lines l) i v) }

/-- The stand has a RUNNING record or an open order, so that its line stays (R173). -/
def lineFixed (s : State) (st : StandId) : Bool :=
  (runningReel s st).isSome || (openRow s st).isSome

/-- A write of a stand parameter at a used index; an accepted change of the line empties the stand's three
arm contexts (R172, R173). The flag is false for the refused line write. That a TURNING run keeps the
intervals it counted before the change of line is the model's choice (assumption log 41). -/
def writeStand (st : StandId) (i : Fin 14) (v : Nat) (s : State) : State × Bool :=
  let x := clampTo (vget standSpecs i) v
  if i == 0 then
    if lineFixed s st then (s, false)
    else if x == standParam s st 0 then (s, true)
    else (setArms (storeStand st i x s) st (perArm emptyArm), true)
  else (storeStand st i x s, true)

/-- A write of a line parameter at a used index; a write of Gmin causes an evaluation (R95, R172). -/
def writeLine (l : LineId) (i : Fin 4) (v : Nat) (s : State) : State :=
  let s1 := storeLine l i (clampTo (vget lineSpecs i) v) s
  if i == 0 then evaluate l s1 else s1

/-- A write of a parameter (R172, R173); a write at an unused index is ignored. The flag is false for the
refused line write. -/
def writeParam (t : Target) (i v : Nat) (s : State) : State × Bool :=
  match t with
  | .stand st => if h : i < 14 then writeStand st ⟨i, h⟩ v s else (s, true)
  | .line l => if h : i < 4 then (writeLine l ⟨i, h⟩ v s, true) else (s, true)

/-- The values of a DATA frame written at consecutive indices; the flag is false when a line write was
refused (R177). That each write has its effect before the next value is stored, so that the evaluation of a
Gmin raises the line's flag by the report enable held before the frame, is the model's choice (assumption
log 42). -/
def writeRun (t : Target) : Nat → List Nat → State → State × Bool
  | _, [], s => (s, true)
  | i, v :: vs, s =>
    let p := writeParam t i v s
    let q := writeRun t (i + 1) vs p.1
    (q.1, p.2 && q.2)

/-- The floors last written made the floors in force (R174). -/
def bringFloors (l : LineId) (s : State) : State :=
  setSettings s { s.settings with
    floors := vset s.settings.floors l ⟨lineParam s l 1, lineParam s l 2⟩ }

/-! ## The speed window (R3, R4) -/

/-- The speed a window count shows, saturating (R3). -/
def windowSpeed (n : Nat) : Nat := min (100 * n) maxSpeed

/-- A line counter at the end of its window, with the next window begun (R3). -/
def endWindow (c : LineCounter) : LineCounter :=
  { c with windowCount := 0, speed := windowSpeed c.windowCount
           overspeed := decide (maxSpeed < 100 * c.windowCount), windowEnd := c.windowEnd + windowMs }

/-- The stands assigned to a line. -/
def standsOf (s : State) (l : LineId) : List StandId :=
  (indices 8).filter fun st => lineOf s st == l

/-- A row is ARMED, past its commit point, on a line (R77). -/
def pastOnLine (s : State) (l : LineId) (r : RowId) : Bool :=
  (vget s.rows r).any fun row => row.state == .armed && row.past && lineOf s row.stand == l

/-- The commit test made again for every ARMED row of the line that is past its commit point (R77). -/
def retestRows (l : LineId) (s : State) : State :=
  (indices 16).foldl (fun x r => if pastOnLine x l r then testOrder r x else x) s

/-- The window end handed to the line's stands (R4, R58, R61, R77, R112). -/
def handWindowEnd (l : LineId) (s : State) : State :=
  let v := (vget s.lines l).speed
  let floor := (vget s.settings.floors l).measure
  let s1 := (standsOf s l).foldl (fun x st => trackerWindowEnd st v floor x) s
  let s2 := retestRows l s1
  (standsOf s l).foldl (fun x st => sequencerWindowEnd st x) s2

end Sys2Proof.Machine
end

