-- ==== Sys2Proof/Machine/Port.lean ====
section
/-! DEFINITION. The Console Port: how a command frame is taken, answered or ignored (R176 to R180, R190). -/

namespace Sys2Proof.Machine

open Sys2Proof

/-- The answer statuses (R179). -/
inductive Status
  | ok
  | unknownCode
  | badLength
  | badValue
  | noSuchReel
  | reelExists
  | reelTableFull
  | orderTableFull
  | tagInUse
  | noSuchOrder
  | wrongState
  | standNotOnline
  | standBusy
  | armNotReady
  deriving DecidableEq, Repr

/-- The code of a status (R179). -/
def statusCode : Status → Byte
  | .ok => 0
  | .unknownCode => 1
  | .badLength => 2
  | .badValue => 3
  | .noSuchReel => 4
  | .reelExists => 5
  | .reelTableFull => 6
  | .orderTableFull => 7
  | .tagInUse => 8
  | .noSuchOrder => 9
  | .wrongState => 10
  | .standNotOnline => 11
  | .standBusy => 12
  | .armNotReady => 13

/-- What the rule of a command answers: its status and the answer items. -/
structure Reply where
  status : Status
  items : List Byte
  deriving DecidableEq, Repr

/-- The state with an answer of a status alone. -/
def reply (st : Status) (s : State) : State × Reply := (s, ⟨st, []⟩)

/-- An answer frame's contents (R179). -/
def answerOf (code : Byte) (r : Reply) : Answer := ⟨code ||| 0x80, statusCode r.status :: r.items⟩

/-- The bytes of the answer frame of a unit (R178, R179). -/
def answerFrame (unit : BitVec 5) (a : Answer) : List Byte :=
  consoleFrame (unit.setWidth 8) a.code a.payload

/-- The parameter run ended (R176). -/
def endParamRun (s : State) : State := setPort s { s.port with run := none }

/-- The parameter run opened. -/
def openParamRun (t : Target) (i : Nat) (s : State) : State :=
  setPort s { s.port with run := some ⟨t, i⟩ }

/-- The answer being sent. -/
def setAnswer (a : Option Answer) (s : State) : State := setPort s { s.port with answer := a }

/-- A frame's address is the unit's own; a unit whose pins give 0 has none (R178). -/
def ownAddress (s : State) (address : Byte) : Bool :=
  s.port.address != 0 && address == s.port.address.setWidth 8

/-- How the codes differ when a frame is taken: DATA leaves the run open (R176), and four codes are honoured
in broadcast (R180). -/
inductive FrameClass
  | plain
  | honoured
  | data
  deriving DecidableEq, Repr

/-- The run ending that every taken command frame but DATA makes (R176). -/
def runAfter (k : FrameClass) (s : State) : State :=
  match k with
  | .data => s
  | .plain | .honoured => endParamRun s

/-- A command frame that is not discarded for its form (R178 to R180): not collected before the RESET pin is
released (R190); discarded when it is addressed to the unit while an answer is pending; carried out and
answered when addressed; carried out unanswered when it is an honoured broadcast; else ignored. -/
def takeCommand (k : FrameClass) (address code : Byte) (body : State → State × Reply) (s : State) :
    State :=
  if s.resetHeld then s
  else if ownAddress s address then
    if s.port.answer.isSome then s
    else
      let p := body (runAfter k s)
      setAnswer (some (answerOf code p.2)) p.1
  else if address == 0 && k != .plain then (body (runAfter k s)).1
  else runAfter k s

/-- The payload length of the command table, or BAD_LENGTH (R179). -/
def withLength (n : Nat) (p : List Byte) (body : State → State × Reply) (s : State) : State × Reply :=
  if p.length == n then body s else reply .badLength s

/-- The item of a payload at an offset (R181). -/
def item (p : List Byte) (at' n : Nat) : Nat := ofBytes ((p.drop at').take n)

/-- The stand of a stand number 1 to 8. -/
def standOf (n : Nat) : Option StandId :=
  if h : 1 ≤ n ∧ n ≤ 8 then some ⟨n - 1, by omega⟩ else none

/-- The line of a line number 1 to 4. -/
def lineOfNumber (n : Nat) : Option LineId :=
  if h : 1 ≤ n ∧ n ≤ 4 then some ⟨n - 1, by omega⟩ else none

/-- The arm of an arm code 1 to 3. -/
def armOfCode : Nat → Option Arm
  | 1 => some .a
  | 2 => some .b
  | 3 => some .c
  | _ => none

end Sys2Proof.Machine
end

