-- ==== Sys2Proof/Machine/Answers.lean ====
section
/-! DEFINITION. The answer items: codes, presence masks and sections (R39 to R42, R66, R88, R105, R132, R149,
R170, R181, R182). Where the manual leaves a layout open the choice is assumption log 18. -/

namespace Sys2Proof.Machine

open Sys2Proof

/-! ## Codes (R181) -/

/-- Record states as in the ARM REPORT, with STAGED as 0. -/
def reelStateCode : ReelState → Nat
  | .staged => 0
  | .mounted => 1
  | .prepared => 2
  | .ready => 3
  | .committed => 4
  | .running => 5
  | .expired => 6

def verifyCode : VerifyResult → Nat
  | .untested => 1
  | .passed => 2
  | .noTape => 3
  | .doubleTape => 4
  | .shortTurn => 5
  | .timeout => 6

/-- Order states by their place in the Order states table, EMPTY the first. -/
def orderStateCode : OrderState → Nat
  | .armed => 2
  | .held => 3
  | .accelerating => 4
  | .matched => 5
  | .pasting => 6
  | .closing => 7
  | .done => 8
  | .failed => 9
  | .dropped => 10
  | .cancelled => 11

/-- Order reasons by their first appearance in the close table. -/
def reasonCode : OrderReason → Nat
  | .accelRefused => 1
  | .accelTimeout => 2
  | .speedLow => 3
  | .matchLost => 4
  | .tapeNotFound => 5
  | .newReelRemoved => 6
  | .standFault => 7
  | .localStop => 8
  | .notConfirmed => 9
  | .console => 10
  | .reelStopped => 11

def conditionCode : Condition → Nat
  | .offline => 1
  | .online => 2
  | .fault => 3
  | .lockedOut => 4

def standReasonCode : StandReason → Nat
  | .guardOpen => 1
  | .driveFault => 2
  | .armEmpty => 3

/-- Last outcomes by their first appearance in the table of R167. -/
def outcomeCode : LastOutcome → Nat
  | .none => 1
  | .statusDone => 2
  | .statusBadMap => 3
  | .statusRefused _ => 4
  | .statusNoResponse => 5
  | .indexDone => 6
  | .indexMismatch => 7
  | .indexTimeout => 8
  | .indexRefused _ => 9
  | .gaugeStored _ => 10
  | .gaugeRange _ => 11
  | .gaugeNoReply _ _ => 12
  | .verifyRefused _ _ => 13
  | .accelRefused _ _ => 14
  | .coastRefused _ _ => 15
  | .brakeRefused _ _ => 16
  | .retractRefused _ => 17
  | .retractTimeout => 18

/-- The arm a last outcome carries (R167). -/
def outcomeArm : LastOutcome → Option Arm
  | .gaugeStored x => some x
  | .gaugeRange x => some x
  | .gaugeNoReply x _ => some x
  | .verifyRefused x _ => some x
  | .accelRefused x _ => some x
  | .coastRefused x _ => some x
  | .brakeRefused x _ => some x
  | _ => none

/-- The stand reason a last outcome carries (R167). -/
def outcomeReason : LastOutcome → Option StandReason
  | .statusRefused r => some r
  | .indexRefused r => some r
  | .gaugeNoReply _ r => r
  | .verifyRefused _ r => some r
  | .accelRefused _ r => some r
  | .coastRefused _ r => some r
  | .brakeRefused _ r => some r
  | .retractRefused r => some r
  | _ => none

def trackerCode : Option Tracker → Nat
  | none => 1
  | some t =>
    match t.state with
    | .warming => 2
    | .tracking => 3
    | .learned => 4
    | .hold => 5
    | .fault => 6

def phaseCode : Option Sequencer → Nat
  | none => 1
  | some q =>
    match q.phase with
    | .accelerating => 2
    | .matched => 3
    | .pasting => 4
    | .closing => 5

/-! ## Items -/

/-- A set of flags: bit 0 for the first. -/
def flagBits : List Bool → Nat
  | [] => 0
  | b :: bs => b.toNat + 2 * flagBits bs

/-- A presence mask of n bytes, bit 0 of the last byte for the first optional item. -/
def presence (n : Nat) (bs : List Bool) : List Byte := beBytes n (flagBits bs)

/-- An optional item of n bytes, zero when absent. -/
def optional (n : Nat) (x : Option Nat) : List Byte := beBytes n (x.getD 0)

/-- An optional line position. -/
def optionalPos (x : Option Pos) : List Byte := optional 4 (x.map (·.toNat))

/-- A yes or no. -/
def yesNo (b : Bool) : List Byte := beBytes 1 b.toNat

/-- A reel record (R39, R181): 29 bytes. -/
def recordItems (s : State) (slot : SlotId) (r : ReelRecord) : List Byte :=
  let spot := r.arm.bind (armPosition s r.stand)
  let rem := reportedRemaining s r
  presence 2 [r.arm.isSome, spot.isSome, r.outside.isSome, r.current.isSome, r.caliper.isSome,
      rem.isSome, r.learned.isSome, r.tag.isSome] ++
    beBytes 1 slot.val ++ beBytes 4 r.reel ++ beBytes 1 (r.stand.val + 1) ++ beBytes 2 r.grade ++
    beBytes 1 (reelStateCode r.state) ++ optional 1 (r.arm.map armCode) ++
    optional 1 (spot.map spiderCode) ++ beBytes 2 r.core ++ optional 2 r.outside ++
    optional 2 r.current ++ optional 1 r.caliper ++ optional 4 rem ++ optional 2 r.learned ++
    beBytes 1 (verifyCode r.verify) ++
    beBytes 1 (flagBits [r.runout, r.clamped, r.trackingFault]) ++ optional 1 r.tag

/-- PASTE has fired for the order of a row (R119): the paste boundary is crossed in PASTING, and no other way
leads to CLOSING and DONE. -/
def orderPasted (s : State) (row : OrderRow) : Bool :=
  match row.state with
  | .pasting => pasteFiredFor s row.stand
  | .closing | .done => true
  | .armed | .held | .accelerating | .matched | .failed | .dropped | .cancelled => false

/-- READ ORDER section 0 (R88, R119, R182). Whether PASTE has fired, for which R182 names no place, is bit 3 of
the flags byte, above the row's three flags: the model's choice (assumption log 38). -/
def orderItems (s : State) (r : RowId) (row : OrderRow) : List Byte :=
  let past := if row.state == .armed then some row.past.toNat else none
  let pp := row.place.map (·.ppref)
  let pl := row.place.map (·.plate)
  let q := row.place.map (·.q)
  presence 1 [row.reason.isSome, past.isSome, pp.isSome, pl.isSome, q.isSome, row.distance.isSome,
      row.commitPoint.isSome, row.latestCommitPoint.isSome] ++
    beBytes 1 r.val ++ beBytes 1 (orderStateCode row.state) ++ optional 1 (row.reason.map reasonCode) ++
    beBytes 1 row.tag ++ beBytes 1 (row.stand.val + 1) ++ beBytes 4 row.expiring ++
    beBytes 4 row.newReel ++ beBytes 1 (armCode row.newArm) ++ yesNo row.go ++ optional 1 past ++
    beBytes 1 (flagBits [row.late, row.speedLow, row.spacingShort, orderPasted s row]) ++ optionalPos pp ++
    optionalPos pl ++ optionalPos q ++ optional 4 row.distance ++ optionalPos row.commitPoint ++
    optionalPos row.latestCommitPoint

/-- READ ORDER section 1 (R132, R182). -/
def orderResultItems (row : OrderRow) : List Byte :=
  let c := row.commitment
  let f := row.fire
  let d := row.results
  presence 2 [c.isSome, c.isSome, c.isSome, c.isSome, f.isSome, f.isSome, f.isSome, f.isSome, f.isSome,
      d.isSome, (d.bind (·.stub)).isSome, d.isSome, d.isSome] ++
    optionalPos (c.map (·.position)) ++ optional 2 (c.map (·.frozen.tArm)) ++
    optional 2 (c.map (·.frozen.theta)) ++ optional 4 (c.map (·.frozen.knifeDelay)) ++
    optional 1 (c.map (·.frozen.tolerance)) ++ optional 1 (c.map (·.frozen.retryLimit)) ++
    optional 2 (c.map (·.frozen.pulseWidth)) ++ optionalPos (c.map (·.deadline)) ++
    optional 1 (c.map (·.retries)) ++ optionalPos (f.map (·.pt)) ++ optionalPos (f.map (·.pp)) ++
    optionalPos (f.map (·.pn)) ++ optionalPos (f.map (·.pk)) ++ optional 1 (f.map (·.k)) ++
    optionalPos (d.map (·.splicePosition)) ++ optional 4 (d.bind (·.stub)) ++
    optional 1 (d.map (·.cutConfirmed.toNat)) ++ optional 1 (d.map (·.faultAfterPaste.toNat))

/-- The three bytes of a spider map, zero when absent (R181). -/
def mapItems : Option (PerArm SpiderPos) → List Byte
  | none => [0, 0, 0]
  | some m => beBytes 1 (spiderCode m.a) ++ beBytes 1 (spiderCode m.b) ++ beBytes 1 (spiderCode m.c)

/-- READ STAND section 0 (R149, R170, R182). -/
def standItems (s : State) (st : StandId) : List Byte :=
  let x := vget s.stands st
  let left := x.stopHold.map (· - s.now)
  let arm := outcomeArm x.outcome
  let why := outcomeReason x.outcome
  let e := x.errors
  let slot : SlotReading := vget s.bus.slots st
  presence 1 [x.map.isSome, left.isSome, arm.isSome, why.isSome] ++
    beBytes 1 (conditionCode x.condition) ++ mapItems x.map ++
    beBytes 1 (flagBits [x.loaded.a, x.loaded.b, x.loaded.c]) ++
    beBytes 1 (flagBits (allArms.map fun x => (boundSlot s st x).isSome)) ++
    beBytes 1 (flagBits [e.standUnsafe, e.lost, e.noReply, e.indexTimeout, e.indexMismatch, e.armFault]) ++
    beBytes 1 x.misses ++ optional 2 left ++ beBytes 1 (outcomeCode x.outcome) ++
    optional 1 (arm.map armCode) ++ optional 1 (why.map standReasonCode) ++
    yesNo (indexInProgress s st) ++ yesNo s.bus.quiet ++ beBytes 1 slot.toNat ++
    yesNo (vget s.bus.bids st) ++ beBytes 1 (vget s.bus.lapses st)

/-- A request or read as its kind code and arm. -/
def kindArm (k : RequestKind) (arm : Option Arm) : List Byte := beBytes 1 (kindCode k) ++ [armByte arm]

/-- The stand's request in exchange. -/
def exchangeRequest (s : State) (st : StandId) : Option Request :=
  match s.bus.pair with
  | .request st' r _ _ => if st' == st then some r else none
  | _ => none

/-- An outstanding read as its kind code and arm. -/
def readItems : ReadKind → List Byte
  | .gauge x => kindArm .gauge (some x)
  | .status => kindArm .status none

/-- READ STAND section 1 (R149, R182). That the outstanding reads are listed in the order in which they were
opened is the model's choice (assumption log 47). -/
def busItems (s : State) (st : StandId) : List Byte :=
  let q := vget s.bus.queues st
  let x := exchangeRequest s st
  let rs := vget s.bus.reads st
  presence 1 [x.isSome] ++ beBytes 1 q.length ++ q.flatMap (fun r => kindArm r.kind r.arm) ++
    (match x with
      | some r => kindArm r.kind r.arm
      | none => [0, 0]) ++
    beBytes 1 rs.length ++ rs.flatMap fun o => readItems o.read

/-- A field of the sequencer that is present in some phases. -/
def inPhases (q : Option Sequencer) (ps : List Phase) (f : Sequencer → Nat) : Option Nat :=
  (q.filter fun x => ps.contains x.phase).map f

/-- READ STAND section 2 (R15, R66, R132, R182). -/
def spliceItems (s : State) (st : StandId) : List Byte :=
  let t := vget s.trackers st
  let q := vget s.sequencers st
  let o := vget s.outputs st
  let prev := t.bind (·.cPrev)
  let delta := t.bind (·.delta)
  let acc := inPhases q [.accelerating] fun x => if x.accepted then 2 else 1
  let inRun := inPhases q [.accelerating] fun x => x.inRun.toNat
  let outRun := inPhases q [.matched] fun x => x.outRun.toNat
  let missRun := inPhases q [.matched] fun x => x.missRun.toNat
  let cNew := q.bind (·.cNew)
  let speed := q.bind (·.pasteSpeed)
  let fired := inPhases q [.pasting, .closing] fun x => x.pasteFired.toNat
  let cut := inPhases q [.closing] fun x => x.cutConfirmed.toNat
  let ended := inPhases q [.closing] fun x => x.retractEnded.toNat
  presence 2 [prev.isSome, delta.isSome, acc.isSome, inRun.isSome, outRun.isSome, missRun.isSome,
      cNew.isSome, speed.isSome, fired.isSome, cut.isSome, ended.isSome] ++
    beBytes 1 (trackerCode t) ++ beBytes 1 ((t.map (·.window.length)).getD 0) ++ optional 2 prev ++
    optional 2 delta ++ beBytes 1 ((t.map (·.rejects)).getD 0) ++ beBytes 1 (phaseCode q) ++
    optional 1 acc ++ optional 1 inRun ++ optional 1 outRun ++ optional 1 missRun ++
    optional 2 cNew ++ optional 4 speed ++ optional 1 fired ++ optional 1 cut ++ optional 1 ended ++
    yesNo o.paste.isSome ++ yesNo o.knife.isSome

/-- The tag and state of an entry's row. -/
def entryTag (s : State) (e : Entry) : Nat := ((vget s.rows e.row).map (·.tag)).getD 0
def entryState (s : State) (e : Entry) : Nat :=
  ((vget s.rows e.row).map fun r => orderStateCode r.state).getD 0

/-- The entries of a line in listing order (R92, R105). -/
def listedEntries (s : State) (l : LineId) : List Entry :=
  listingOrder (position s l) (vget s.schedules l)

/-- READ LINE section 0 (R105, R182). -/
def lineItems (s : State) (l : LineId) : List Byte :=
  let c := vget s.lines l
  let es := listedEntries s l
  beBytes 4 c.position.toNat ++ beBytes 4 c.speed ++ yesNo c.overspeed ++ beBytes 1 es.length ++
    es.flatMap fun e =>
      beBytes 1 e.row.val ++ beBytes 1 (entryTag s e) ++ beBytes 1 (e.stand.val + 1) ++
        beBytes 1 (entryState s e) ++ beBytes 1 (flagBits [e.frozen, e.spacingShort])

/-- READ LINE sections 1 to 8: the entry at a listing place; the position and the count alone when the place
is above the count (R182). -/
def lineEntryItems (s : State) (l : LineId) (place : Nat) : List Byte :=
  let es := listedEntries s l
  beBytes 4 (position s l).toNat ++ beBytes 1 es.length ++
    match es[place - 1]? with
    | none => []
    | some e =>
      let cp := if e.frozen then none else some (back e.place.q e.distance)
      presence 1 [cp.isSome] ++ beBytes 1 e.row.val ++ beBytes 4 e.place.ppref.toNat ++
        beBytes 4 e.place.plate.toNat ++ beBytes 4 e.place.q.toNat ++ beBytes 4 e.distance ++
        optionalPos cp

/-- The slots LIST REELS passes over from a start slot that are not FREE, in slot order (R41). -/
def listedSlots (s : State) (start : Nat) : List SlotId :=
  (indices 64).filter fun i => decide (start ≤ i.val) && (vget s.reels i).isSome

/-- The next start slot: after the twelfth record listed, or 64 when the walk passed slot 63 (R41). -/
def nextStart (s : State) (start : Nat) : Nat :=
  match (listedSlots s start)[11]? with
  | some i => i.val + 1
  | none => 64

/-- The answer of LIST REELS (R41, R181). -/
def listItems (s : State) (start : Nat) : List Byte :=
  let found := (listedSlots s start).take 12
  beBytes 1 found.length ++ beBytes 1 (nextStart s start) ++
    found.flatMap fun i => beBytes 4 (((vget s.reels i).map (·.reel)).getD 0)

/-- The four change-flag bytes (R184). -/
def flagItems (f : BitVec 28) : List Byte :=
  [f.setWidth 8, (f >>> 8).setWidth 8, (f >>> 16).setWidth 8, (f >>> 24).setWidth 8]

/-- The flags an ACK CHANGES mask names; bits 4 to 7 of byte 3 are not read (R185). -/
def maskOf (p : List Byte) : BitVec 28 :=
  BitVec.ofNat 28 (item p 0 1 + item p 1 1 * 256 + item p 2 1 * 65536 + item p 3 1 % 16 * 16777216)

/-- The ARM REPORT payload for an arm (R42, R148, R153): the record bound to it, or nothing for the NONE
marker; a remaining length in whole metres, 0xFFFFFFFF when absent. -/
def armReport (s : State) (st : StandId) (arm : Option Arm) : List Byte :=
  match arm.bind (boundReel s st) with
  | none => []
  | some r =>
    beBytes 4 r.reel ++ beBytes 2 r.grade ++ beBytes 1 (reelStateCode r.state) ++
      beBytes 4 (match reportedRemaining s r with
        | some x => x / stepsPerMetre
        | none => 0xFFFFFFFF)

end Sys2Proof.Machine
end

