-- ==== Sys2Proof/Machine/Watches.lean ====
section
/-! DEFINITION. The position watches (R2) and the timers: which reports and timer ends are due. A watch is held
exactly in the states its owner's rule names, so it is computed and not stored. -/

namespace Sys2Proof.Machine

open Sys2Proof

/-- The commit-point watch: held while ARMED and not past; reached (R73, R76). -/
def commitPointDue (s : State) (r : RowId) : Bool :=
  (vget s.rows r).any fun row => row.state == .armed && !row.past &&
    row.commitPoint.any fun p => atOrAfter (standPos s row.stand) p

/-- The latest-commit-point watch: held while ARMED or HELD; reached (R73, R79). -/
def latestDue (s : State) (r : RowId) : Bool :=
  (vget s.rows r).any fun row =>
    row.latestCommitPoint.any fun p => atOrAfter (standPos s row.stand) p

/-- The deadline watch: held in ACCELERATING; reached (R111). -/
def deadlineDue (s : State) (st : StandId) : Bool :=
  (vget s.sequencers st).any fun q => q.phase == .accelerating && deadlineReached s st q

/-- The fire positions of a sequencer's row. -/
def fireOf (s : State) (q : Sequencer) : Option FirePositions := (vget s.rows q.row).bind (·.fire)

/-- The Pp watch: held in PASTING before the paste; reached (R118, R119). -/
def pasteDue (s : State) (st : StandId) : Bool :=
  (vget s.sequencers st).any fun q => q.phase == .pasting && !q.pasteFired &&
    (fireOf s q).any fun f => atOrAfter (standPos s st) f.pp

/-- The Pk watch: held in PASTING after the paste; reached (R119, R120). -/
def knifeDue (s : State) (st : StandId) : Bool :=
  (vget s.sequencers st).any fun q => q.phase == .pasting && q.pasteFired &&
    (fireOf s q).any fun f => atOrAfter (standPos s st) f.pk

/-- The stale-limit watch of an arm context, reached (R7). -/
def staleDue (s : State) (st : StandId) (arm : Arm) : Bool :=
  (armContext s st arm).staleLimit.any fun p => atOrAfter (standPos s st) p

/-- The end time of the pulse of an output, while it is asserted. -/
def pulseEndOf (s : State) (st : StandId) : OutputLine → Option Nat
  | .paste => (vget s.outputs st).paste
  | .knife => (vget s.outputs st).knife

/-- A timer has come to its end. -/
def timeDue (s : State) (t : Option Nat) : Bool := t.any fun e => decide (e ≤ s.now)

/-- The reply time of a request exchange, while there is one. -/
def replyEnd (s : State) : Option Nat :=
  match s.bus.pair with
  | .request _ _ _ lim => some lim
  | _ => none

/-- The end of a grant, while there is one. -/
def grantEnd (s : State) : Option Nat :=
  match s.bus.pair with
  | .grant _ lim => some lim
  | _ => none

/-- The deadline of a stand's TURNING run (R25). -/
def verifyEnd (s : State) (st : StandId) : Option Nat :=
  ((vget s.verifies st).bind (·.turning)).map (·.deadline)

/-- The end of the speed window of a line (R3). -/
def windowEndOf (s : State) (l : LineId) : Option Nat := some (vget s.lines l).windowEnd

/-- The end of a stand's cut wait in CLOSING (R122). -/
def cutEnd (s : State) (st : StandId) : Option Nat :=
  ((vget s.sequencers st).filter fun q => q.phase == .closing).bind (·.cutWait)

/-- The end of a stand's retract wait in CLOSING (R121). -/
def retractEnd (s : State) (st : StandId) : Option Nat :=
  ((vget s.sequencers st).filter fun q => q.phase == .closing).bind (·.retractWait)

/-- The first element of a list for which a test holds, as a command. -/
def firstDue {α : Type} (l : List α) (t : α → Bool) (c : α → Instr) : Option Instr :=
  (l.find? t).map c

/-- The arms of some stands. -/
def armsOf (sts : List StandId) : List (StandId × Arm) := sts.flatMap fun st => allArms.map fun x => (st, x)

/-- The reports and timer ends of the part itself that are due, the first in a fixed order (log 2). -/
def dueCommand (s : State) : Option Instr :=
  let sts := indices 8
  let rows := indices 16
  let arms := armsOf sts
  firstDue rows (commitPointDue s) .commitPointReport <|>
  firstDue rows (latestDue s) .latestCommitPointReport <|>
  firstDue sts (deadlineDue s) .matchDeadlineReport <|>
  firstDue sts (pasteDue s) .pastePositionReport <|>
  firstDue sts (knifeDue s) .knifePositionReport <|>
  firstDue arms (fun x => staleDue s x.1 x.2) (fun x => .staleLimitReached x.1 x.2) <|>
  firstDue sts (fun st => timeDue s (pulseEndOf s st .paste)) (fun st => .pulseEnd st .paste) <|>
  firstDue sts (fun st => timeDue s (pulseEndOf s st .knife)) (fun st => .pulseEnd st .knife) <|>
  firstDue sts (fun st => timeDue s (vget s.stands st).stopHold) .stopHoldTimerEnd <|>
  firstDue [()] (fun _ => timeDue s (replyEnd s)) (fun _ => .replyTimeEnd) <|>
  firstDue [()] (fun _ => timeDue s (grantEnd s)) (fun _ => .grantLapse) <|>
  firstDue (sts.flatMap fun st => (vget s.bus.reads st).map fun o => (st, o))
    (fun x => timeDue s (some x.2.limit)) (fun x => .readLimit x.1 x.2.read) <|>
  firstDue sts (fun st => timeDue s (vget s.bus.indexes st)) .indexTimeout <|>
  firstDue sts (fun st => timeDue s (verifyEnd s st)) .verifyTimeout <|>
  firstDue sts (fun st => timeDue s (cutEnd s st)) .cutWaitEnd <|>
  firstDue sts (fun st => timeDue s (retractEnd s st)) .retractTimeout <|>
  firstDue [()] (fun _ => timeDue s (quietEnd s)) (fun _ => .quietTimer) <|>
  firstDue (indices 4) (fun l => timeDue s (windowEndOf s l)) .speedWindowEnd

/-! ## The reports (R2) -/

/-- The commit-point watch reports when it is due: the commit test (R76). -/
def reportCommitPoint (r : RowId) (s : State) : State :=
  if commitPointDue s r then testOrder r s else s

/-- The latest-commit-point watch reports when it is due (R79). -/
def reportLatest (r : RowId) (s : State) : State :=
  if latestDue s r then
    let p := latestReport r s
    settle (lineOfRow s r) p.2 p.1
  else s

/-- The deadline watch reports when it is due: the order closed FAILED(ACCEL_TIMEOUT) (R111). -/
def reportDeadline (st : StandId) (s : State) : State :=
  match (vget s.sequencers st).filter fun _ => deadlineDue s st with
  | some q => sequencerClose q .accelTimeout s
  | none => s

/-- The Pp watch reports when it is due (R119). -/
def reportPaste (st : StandId) (s : State) : State := if pasteDue s st then firePaste st s else s

/-- The Pk watch reports when it is due (R120, R121). -/
def reportKnife (st : StandId) (s : State) : State := if knifeDue s st then fireKnife st s else s

/-- The stale-limit watch of an arm reports when it is due: the arm context emptied (R7). -/
def reportStale (st : StandId) (arm : Arm) (s : State) : State :=
  if staleDue s st arm then setArmContext s st arm emptyArm else s

/-- The rows whose stands are assigned to a line. -/
def rowsOf (s : State) (l : LineId) : List RowId :=
  (indices 16).filter fun r => (vget s.rows r).any fun row => lineOf s row.stand == l

/-- The events that come together with a pulse of a line: those queued before the line's next pulse, so that
the line position is the same at all of them. A report that the queue names among them is taken in its turn
there, since the manual accepts either order of events together (R80, R85, R131); that the queue says which is
the model's choice (assumption log 43). -/
def together (l : LineId) (s : State) : List Instr := s.pending.takeWhile (· != .encoderPulse l)

/-- The reports of one kind, but for those that are named to be taken later. -/
def reportAll {α : Type} (later : List Instr) (c : α → Instr) (f : α → State → State) (xs : List α)
    (s : State) : State :=
  (xs.filter fun x => !later.contains (c x)).foldl (fun t x => f x t) s

/-- Every watch of a line that is due reports, kind by kind, rows and stands in ascending order, but for the
reports named to be taken later. R2 needs no order between the reports of two owners; this one is the model's
(assumption log 35). -/
def reportLine (l : LineId) (later : List Instr) (s : State) : State :=
  let rows := rowsOf s l
  let sts := standsOf s l
  let s1 := reportAll later .commitPointReport reportCommitPoint rows s
  let s2 := reportAll later .latestCommitPointReport reportLatest rows s1
  let s3 := reportAll later .matchDeadlineReport reportDeadline sts s2
  let s4 := reportAll later .pastePositionReport reportPaste sts s3
  let s5 := reportAll later .knifePositionReport reportKnife sts s4
  reportAll later (fun x => .staleLimitReached x.1 x.2) (fun x => reportStale x.1 x.2) (armsOf sts) s5

end Sys2Proof.Machine
end

