-- ==== Sys2Proof/Machine/BusEvents.lean ====
section
/-! DEFINITION. Meanings: the condition scan, the answers to requests, the ends of the bus timers, and the
messages sent on a grant (07_the_stand_bus.md, 08_stand_conditions_and_faults.md). -/

namespace Sys2Proof.Machine

open Sys2Proof

/-! ## The scan -/

/-- SCAN_CALL (R135): in quiet mode a call on the resting line starts a scan. -/
def execScanCall (s : State) : Result :=
  if s.bus.quiet && s.bus.scan.isNone then .next (startScan s) else .next s

/-- QUIET_TIMER (R135): 100 ms after the last END slot a scan starts. -/
def execQuietTimer (s : State) : Result :=
  match quietEnd s with
  | some e => .next (startScan (reachTime e s))
  | none => .next s

/-- The readings of a scan handed to the Stand Supervisor, stand 1 first (R133, assumption log 6). -/
def handReadings (s : State) : State :=
  (indices 8).foldl (fun x st => takeReading st (vget s.bus.slots st) x) s

/-- SCAN_END (R133, R136, R155, R156). -/
def execScanEnd (slots : Vector Byte 8) (s : State) : Result :=
  if s.bus.scan.isSome then .next (arbitrate (handReadings (endScan slots s))) else .next s

/-- STOP_HOLD_TIMER_END (R164, R165): an ONLINE stand enters LOCKED_OUT. -/
def execStopHoldTimerEnd (st : StandId) (s : State) : Result :=
  let x := vget s.stands st
  match x.stopHold with
  | none => .next s
  | some e =>
    let s1 := reachTime e s
    if x.condition == .online then .next (arbitrate (leaveService st .lockedOut .localStop s1))
    else .next (setStand s1 st { x with stopHold := none })

/-! ## Answers to requests -/

/-- The pair is in a request exchange with a stand whose request an answer echoes (R142): the request and
whether it is abandoned. -/
def answered (s : State) (st : StandId) (k : RequestKind) (arm : Option Arm) :
    Option (Request × Bool) :=
  match s.bus.pair with
  | .request st' r ab _ => if st' == st && r.kind == k && r.arm == arm then some (r, ab) else none
  | _ => none

/-- The ACCEPT of a VERIFY moves the WAITING run of its arm to TURNING (R25). -/
def turnRun (st : StandId) (arm : Option Arm) (s : State) : State :=
  match vget s.verifies st with
  | some v =>
    if some v.arm == arm && v.turning.isNone then
      setVerify s st (some { v with turning := some ⟨false, false, 0, [], s.now + verifyMs⟩ })
    else s
  | none => s

/-- The sequencer awaits the answer to the ACCEL of an arm (R109). -/
def awaitsAccel (s : State) (st : StandId) (arm : Option Arm) : Option Sequencer :=
  (vget s.sequencers st).filter fun q =>
    q.phase == .accelerating && !q.accepted && some q.newArm == arm

/-- An ACCEPT by the request's kind (R143 to R145). -/
def acceptRequest (st : StandId) (r : Request) (s : State) : State :=
  match r.kind with
  | .gauge =>
    match r.arm with
    | some arm => openRead st (.gauge arm) r.reel s
    | none => s
  | .status => openRead st .status none s
  | .index => setIndexRecord st (some (s.now + indexLimitMs)) s
  | .verify => turnRun st r.arm s
  | .accel =>
    match awaitsAccel s st r.arm with
    | some q => setSequencer s st (some { q with accepted := true })
    | none => s
  | .coast | .brake | .retract => s

/-- ACCEPT (R142): the exchange ends; an abandoned request's answer is not handed on (R139). -/
def execAccept (st : StandId) (k : RequestKind) (arm : Option Arm) (s : State) : Result :=
  match answered s st k arm with
  | none => .next s
  | some (r, abandoned) =>
    let s1 := freePair s
    .next (arbitrate (if abandoned then s1 else acceptRequest st r s1))

/-- The last outcome a REFUSE writes (R146). -/
def refusalOutcome (k : RequestKind) (arm : Option Arm) (why : StandReason) : Option LastOutcome :=
  match k, arm with
  | .index, _ => some (.indexRefused why)
  | .retract, _ => some (.retractRefused why)
  | .status, _ => some (.statusRefused why)
  | .verify, some x => some (.verifyRefused x why)
  | .accel, some x => some (.accelRefused x why)
  | .coast, some x => some (.coastRefused x why)
  | .brake, some x => some (.brakeRefused x why)
  | .gauge, some x => some (.gaugeNoReply x (some why))
  | _, none => none

/-- A REFUSE written as the stand's last outcome (R146). -/
def writeRefusal (st : StandId) (r : Request) (why : StandReason) (s : State) : State :=
  match refusalOutcome r.kind r.arm why with
  | some o => writeOutcome st o s
  | none => s

/-- The REFUSE of a VERIFY returns the WAITING run's context to IDLE (R25). -/
def dropWaitingRun (st : StandId) (arm : Option Arm) (s : State) : State :=
  match vget s.verifies st with
  | some v => if some v.arm == arm && v.turning.isNone then setVerify s st none else s
  | none => s

/-- A REFUSE handed to its requester (R22, R25, R109, R123). -/
def refuseRequest (st : StandId) (r : Request) (s : State) : State :=
  match r.kind with
  | .accel =>
    match awaitsAccel s st r.arm with
    | some q => sequencerClose q .accelRefused s
    | none => s
  | .verify => dropWaitingRun st r.arm s
  | .retract => if awaitsRetract s st then endRetract st s else s
  | .index | .coast | .brake | .gauge | .status => s

/-- REFUSE (R142, R146). -/
def execRefuse (st : StandId) (k : RequestKind) (arm : Option Arm) (why : StandReason) (s : State) :
    Result :=
  match answered s st k arm with
  | none => .next s
  | some (r, abandoned) =>
    let s1 := freePair s
    .next (arbitrate (if abandoned then s1 else refuseRequest st r (writeRefusal st r why s1)))

/-- REPLY_TIME_END (R142): the request is discarded and NO_REPLY reported. The discard notices of R139 write
nothing (R22, R158, R161). -/
def execReplyTimeEnd (s : State) : Result :=
  match s.bus.pair with
  | .request st _ _ lim => .next (arbitrate (takeHardError st .noReply (freePair (reachTime lim s))))
  | _ => .next s

/-- GRANT_LAPSE (R147): the lapse count rises, and at three NO_REPLY is reported. -/
def execGrantLapse (s : State) : Result :=
  match s.bus.pair with
  | .grant st lim =>
    let n := vget s.bus.lapses st
    let s1 := freePair (reachTime lim s)
    .next (arbitrate (if n + 1 < 3 then setLapses st (n + 1) s1
      else takeHardError st .noReply (setLapses st 0 s1)))
  | _ => .next s

/-- READ_LIMIT (R144): the outstanding read ends unanswered (R22, R158). -/
def execReadLimit (st : StandId) (k : ReadKind) (s : State) : Result :=
  match (vget s.bus.reads st).find? (readIs k) with
  | none => .next s
  | some o =>
    let s1 := closeRead st k (reachTime o.limit s)
    match k with
    | .gauge arm => .next (writeOutcome st (.gaugeNoReply arm none) s1)
    | .status => .next (writeOutcome st .statusNoResponse s1)

/-- INDEX_TIMEOUT (R145, R161). -/
def execIndexTimeout (st : StandId) (s : State) : Result :=
  match vget s.bus.indexes st with
  | none => .next s
  | some lim =>
    .next (arbitrate (takeHardError st .indexTimeout (writeOutcome st .indexTimeout
      (setIndexRecord st none (reachTime lim s)))))

/-- VERIFY_TIMEOUT (R28): the run ends TIMEOUT, or starts again when it is marked to repeat. -/
def execVerifyTimeout (st : StandId) (s : State) : Result :=
  match vget s.verifies st with
  | none => .next s
  | some v =>
    match v.turning with
    | none => .next s
    | some t =>
      let s1 := reachTime t.deadline s
      .next (arbitrate (if t.repeatMark then repeatRun st v.reel s1
        else finishRun st v.reel .timeout s1))

/-- CUT_WAIT_END (R122): cut confirmed stays no. -/
def execCutWaitEnd (st : StandId) (s : State) : Result :=
  match cutEnd s st with
  | none => .next s
  | some e =>
    .next (arbitrate (tryCloseDone st
      (modSequencer st (fun q => { q with cutWait := none }) (reachTime e s))))

/-- RETRACT_TIMEOUT (R123): the retract wait ends. While retract ended is no the soft error is recorded and it
becomes yes. -/
def execRetractTimeout (st : StandId) (s : State) : Result :=
  match retractEnd s st with
  | none => .next s
  | some e => .next (arbitrate (endRetractWait st (reachTime e s)))

/-! ## Messages on a grant -/

/-- A message of the granted stand: handed on, then the grant ends (R147). A frame from any other stand, or
outside a grant exchange, is not taken. -/
def onGrant (st : StandId) (f : State → State) (s : State) : Result :=
  if granted s st then .next (arbitrate (endGrant st (f s))) else .next s

/-- A gauge reading stored in a record; a PREPARED record with verify result PASSED becomes READY (R21). -/
def withOutside (c : Nat) (r : ReelRecord) : ReelRecord :=
  let r' := { r with outside := some c }
  if r.state == .prepared && r.verify == .passed then { r' with state := .ready } else r'

/-- A gauge diameter applied to the record whose MOUNT asked for it, while still bound to the arm (R21). For
a record no longer bound there, which the manual does not treat, no last outcome is written and no change flag
raised: the model's choice (assumption log 36). A record entered again under the number and mounted on the arm
is taken for the record that was asked about: the model's choice too (assumption log 44). -/
def applyGauge (st : StandId) (arm : Arm) (reel : Option Nat) (d : Nat) (s : State) : State :=
  match reel.bind (reelOf s) with
  | some r =>
    if r.stand == st && r.arm == some arm then
      if 150 ≤ d && d ≤ 1400 then
        writeOutcome st (.gaugeStored arm) (modReel r.reel (withOutside (circumferenceOf d)) s)
      else writeOutcome st (.gaugeRange arm) s
    else s
  | none => s

/-- A RESPONSE handed to the requester of its outstanding read; ignored when there is none (R144). -/
def takeResponse (st : StandId) (body : ReadResponse) (s : State) : State :=
  match body with
  | .gauge arm d =>
    match (vget s.bus.reads st).find? (readIs (.gauge arm)) with
    | some o => applyGauge st arm o.reel d.toNat (closeRead st (.gauge arm) s)
    | none => s
  | .status x y z =>
    match (vget s.bus.reads st).find? (readIs .status) with
    | some _ => takeStatus st x y z (closeRead st .status s)
    | none => s

/-- RESPONSE (R144, R21, R157). -/
def execResponse (st : StandId) (body : ReadResponse) (s : State) : Result :=
  onGrant st (takeResponse st body) s

/-- INDEX_DONE (R145, R161): ignored when the stand holds no index record. -/
def execIndexDone (st : StandId) (x y z : SpiderPos) (s : State) : Result :=
  onGrant st (fun t =>
    if (vget t.bus.indexes st).isSome then takeIndexDone st ⟨x, y, z⟩ (setIndexRecord st none t)
    else t) s

/-- A VERIFY DONE at the stand's verification context (R26, R28). -/
def takeVerifyDone (st : StandId) (arm : Arm) (s : State) : State :=
  match vget s.verifies st with
  | none => s
  | some v =>
    match v.turning with
    | none => s
    | some t =>
      if v.arm == arm then
        if t.repeatMark then repeatRun st v.reel s else finishRun st v.reel (judgeRun t) s
      else s

/-- VERIFY_DONE (R26, R28). -/
def execVerifyDone (st : StandId) (arm : Arm) (s : State) : Result :=
  onGrant st (takeVerifyDone st arm) s

/-- ARM_HOME (R123). -/
def execArmHome (st : StandId) (s : State) : Result :=
  onGrant st (fun t => if awaitsRetract t st then endRetract st t else t) s

/-- CUT_CONFIRMED (R122). -/
def execCutConfirmed (st : StandId) (s : State) : Result :=
  onGrant st (fun t =>
    if awaitsCut t st then
      tryCloseDone st (modSequencer st (fun q => { q with cutConfirmed := true, cutWait := none }) t)
    else t) s

/-- ARM_LOADED (R37, R159). -/
def execArmLoaded (st : StandId) (arm : Arm) (s : State) : Result :=
  onGrant st (fun t => raiseStand st (setLoaded st arm true t)) s

/-- ARM_EMPTIED (R38, R159, R166). -/
def execArmEmptied (st : StandId) (arm : Arm) (s : State) : Result :=
  onGrant st (fun t => raiseStand st (armReportedEmpty st arm t)) s

/-- The ARM REPORT sent in the exchange of a QUERY ARM (R148). -/
def sendReport (st : StandId) (arm : Option Arm) (s : State) : State :=
  setBus s { s.bus with report := busFrame false st 0x40 (armByte arm) (armReport s st arm) }

/-- QUERY_ARM (R42, R148). -/
def execQueryArm (st : StandId) (arm : Option Arm) (s : State) : Result :=
  onGrant st (sendReport st arm) s

/-- UNROUTED_STAND_MESSAGE (R147): ignored, and it ends the grant. -/
def execUnroutedStandMessage (st : StandId) (s : State) : Result := onGrant st id s

end Sys2Proof.Machine
end

