-- ==== Sys2Proof/Machine/LineEvents.lean ====
section
/-! DEFINITION. Meanings: power-on reset, the web lines, the position reports, the arm revolutions and the
direct outputs (01_web_lines_and_arm_revolutions.md and the reports of 04 and 06). -/

namespace Sys2Proof.Machine

open Sys2Proof

/-- POWER_ON_RESET (R1, R14, R43, R45, R89, R93, R106, R150, R154, R171, R190): every block at its power-on
state, and the unit address read from ADDR0 to ADDR4. -/
def execPowerOnReset (address : BitVec 5) (s : State) : Result :=
  .next { State.reset with
    port := { State.reset.port with address := address }
    pending := s.pending }

/-- RESET_RELEASE (R134): the first scan starts. -/
def execResetRelease (s : State) : Result :=
  if s.resetHeld then .next (startScan (setResetHeld s false)) else .next s

/-- A line counter with one pulse taken (R1). -/
def pulse (c : LineCounter) : LineCounter :=
  { c with position := c.position + 1, windowCount := c.windowCount + 1 }

/-- ENCODER_PULSE (R1, R2): the pulse, and at it the report of every watch of the line that it makes due, but
for a report that the queue names among the events that come together with the pulse (R80). -/
def execEncoderPulse (l : LineId) (s : State) : Result :=
  .next (arbitrate (reportLine l (together l s) (setLine s l (pulse (vget s.lines l)))))

/-- SPEED_WINDOW_END (R3, R4, R174): the counter's speed and OVERSPEED, the floors in force, then the stands
of the line. -/
def execSpeedWindowEnd (l : LineId) (s : State) : Result :=
  let c := vget s.lines l
  let c' := endWindow c
  let s1 := setLine (reachTime c.windowEnd s) l c'
  let s2 := if c'.overspeed && !c.overspeed then raiseLine l s1 else s1
  .next (arbitrate (handWindowEnd l (bringFloors l s2)))

/-- COMMIT_POINT_REPORT (R2, R76). -/
def execCommitPointReport (r : RowId) (s : State) : Result := .next (arbitrate (reportCommitPoint r s))

/-- LATEST_COMMIT_POINT_REPORT (R2, R79). -/
def execLatestCommitPointReport (r : RowId) (s : State) : Result := .next (arbitrate (reportLatest r s))

/-- MATCH_DEADLINE_REPORT (R2, R111). -/
def execMatchDeadlineReport (st : StandId) (s : State) : Result := .next (arbitrate (reportDeadline st s))

/-- PASTE_POSITION_REPORT (R2, R119). -/
def execPastePositionReport (st : StandId) (s : State) : Result := .next (arbitrate (reportPaste st s))

/-- KNIFE_POSITION_REPORT (R2, R120, R121). -/
def execKnifePositionReport (st : StandId) (s : State) : Result := .next (arbitrate (reportKnife st s))

/-- STALE_LIMIT_REACHED (R2, R7). -/
def execStaleLimitReached (st : StandId) (arm : Arm) (s : State) : Result :=
  .next (reportStale st arm s)

/-- PULSE_END (R12): the asserted output deasserted at its pulse end time. -/
def execPulseEnd (st : StandId) (out : OutputLine) (s : State) : Result :=
  match pulseEndOf s st out with
  | none => .next s
  | some e =>
    let o := vget s.outputs st
    let o' : Outputs := match out with
      | .paste => { o with paste := none }
      | .knife => { o with knife := none }
    .next (setOutputs (reachTime e s) st o')

/-- An arm context after a revolution mark at a line position (R6). -/
def markArm (c : ArmContext) (p : Pos) : ArmContext where
  lastMark := some p
  lastInterval := c.lastMark.map fun m => distance p m
  tapeCount := 0
  staleLimit := some (fwd p staleSteps)

/-- A closed interval handed to the stand's tracker, sequencer and verification (R8). -/
def deliverInterval (st : StandId) (arm : Arm) (w tapes : Nat) (p : Pos) (s : State) : State :=
  verifyMark st arm (some tapes) (sequencerInterval st arm w tapes (trackerInterval st arm w p s))

/-- REVOLUTION_MARK (R6, R8). -/
def execRevolutionMark (st : StandId) (arm : Arm) (s : State) : Result :=
  let c := armContext s st arm
  let p := standPos s st
  let s1 := setArmContext s st arm (markArm c p)
  match c.lastMark with
  | none => .next (verifyMark st arm none s1)
  | some m => .next (arbitrate (deliverInterval st arm (distance p m) c.tapeCount p s1))

/-- An arm context with one more tape mark, the count held at 15 (R9). -/
def tapeArm (c : ArmContext) : ArmContext := { c with tapeCount := min 15 (c.tapeCount + 1) }

/-- TAPE_MARK (R9, R10, R116). -/
def execTapeMark (st : StandId) (s : State) : Result :=
  match spliceArm s st with
  | none => .next s
  | some arm =>
    let s1 := setArmContext s st arm (tapeArm (armContext s st arm))
    .next (arbitrate (sequencerTape st arm (standPos s st) s1))

end Sys2Proof.Machine
end

