-- ==== Sys2Proof/Machine/ReelCommands.lean ====
section
/-! DEFINITION. Meanings: the console's commands on reel records (02_the_reel_table.md, R16 to R41). Each
command is a body, what its rule does and answers, and the meaning that takes its frame. -/

namespace Sys2Proof.Machine

open Sys2Proof

/-- A command whose rule queues no request. -/
def answerCommand (k : FrameClass) (address code : Byte) (body : State → State × Reply) (s : State) : Result :=
  .next (takeCommand k address code body s)

/-- A command whose rule may queue a request: the arbiter chooses at the end (assumption log 9). -/
def answerAndSend (k : FrameClass) (address code : Byte) (body : State → State × Reply) (s : State) :
    Result :=
  .next (arbitrate (takeCommand k address code body s))

/-- The answer OK with items. -/
def ok (items : List Byte) (s : State) : State × Reply := (s, ⟨.ok, items⟩)

/-! ## ENTER REEL (R19) -/

/-- The items of ENTER REEL. An optional item of 0 is not given (R181). -/
structure NewReel where
  reel : Nat
  stand : Nat
  grade : Nat
  core : Nat
  outside : Nat
  caliper : Nat
  deriving DecidableEq, Repr

def newReelItems (p : List Byte) : NewReel :=
  ⟨item p 0 4, item p 4 1, item p 5 2, item p 7 2, item p 9 2, item p 11 1⟩

/-- A core diameter is accepted when its circumference lies in 3,000 to 6,000 web steps (R17). -/
def coreAccepted (d : Nat) : Bool :=
  decide (3000 ≤ circumferenceOf d) && decide (circumferenceOf d ≤ 6000)

/-- The diameters accepted as outside diameters (R17). -/
def outsideAccepted (d : Nat) : Bool := decide (150 ≤ d) && decide (d ≤ 1400)

/-- The calipers accepted (R19). -/
def caliperAccepted (x : Nat) : Bool := decide (40 ≤ x) && decide (x ≤ 200)

/-- A value that is given, when it is not the mark that stands for "not given". -/
def given (mark x : Nat) : Option Nat := if x == mark then none else some x

/-- An item is not given or accepted. -/
def acceptable (ok : Nat → Bool) (x : Option Nat) : Bool := x.all ok

/-- The items lie in their ranges (R19). -/
def newReelAccepted (x : NewReel) : Bool :=
  x.reel != 0 && (standOf x.stand).isSome && acceptable coreAccepted (given 0 x.core) &&
    acceptable outsideAccepted (given 0 x.outside) && acceptable caliperAccepted (given 0 x.caliper)

/-- The STAGED record that ENTER REEL creates. -/
def stagedRecord (s : State) (x : NewReel) (st : StandId) : ReelRecord where
  reel := x.reel
  stand := st
  grade := x.grade
  state := .staged
  arm := none
  core := ((given 0 x.core).map circumferenceOf).getD (standParam s st 11)
  outside := (given 0 x.outside).map circumferenceOf
  caliper := given 0 x.caliper
  current := none
  remaining := none
  learned := none
  verify := .untested
  runout := false
  clamped := false
  trackingFault := false
  tag := none

/-- ENTER REEL (R16, R19). -/
def enterReelBody (p : List Byte) (s : State) : State × Reply :=
  let x := newReelItems p
  match standOf x.stand with
  | none => reply .badValue s
  | some st =>
    if !newReelAccepted x then reply .badValue s
    else if (findReel s x.reel).isSome then reply .reelExists s
    else
      match freeSlot s with
      | none => reply .reelTableFull s
      | some i => ok [] (setReel s i (some (stagedRecord s x st)))

def execEnterReel (address : Byte) (p : List Byte) (s : State) : Result :=
  answerCommand .plain address 0x01 (withLength 12 p (enterReelBody p)) s

/-! ## MOUNT REEL (R20) -/

/-- GAUGE for an arm, with the reel whose MOUNT queued it. -/
def gaugeRequest (arm : Arm) (reel : Nat) : Request := ⟨.gauge, some arm, none, some reel⟩

/-- MOUNT REEL: the record is bound to the arm and a GAUGE is queued (R20). -/
def mountReelBody (p : List Byte) (s : State) : State × Reply :=
  match armOfCode (item p 4 1) with
  | none => reply .badValue s
  | some arm =>
    match findReel s (item p 0 4) with
    | none => reply .noSuchReel s
    | some i =>
      match vget s.reels i with
      | none => reply .noSuchReel s
      | some r =>
        if r.state != .staged then reply .wrongState s
        else if !isOnline s r.stand then reply .standNotOnline s
        else if !loadedUnbound s r.stand arm then reply .armNotReady s
        else
          ok [] (queueRequest r.stand (gaugeRequest arm r.reel)
            (setReel s i (some { r with state := .mounted, arm := some arm })))

def execMountReel (address : Byte) (p : List Byte) (s : State) : Result :=
  answerAndSend .plain address 0x02 (withLength 5 p (mountReelBody p)) s

/-! ## PREPARED (R23) -/

/-- The effect of a declaration on the stand's verification context (R23). A run of another record in
progress starts none (assumption log 31). -/
def declare (r : ReelRecord) (s : State) : State :=
  match vget s.verifies r.stand with
  | none => startIfDue r s
  | some v =>
    if v.reel == r.reel then
      setVerify s r.stand (some { v with
        turning := v.turning.map fun t => { t with repeatMark := true } })
    else s

/-- PREPARED: the record becomes PREPARED with verify result NONE (R23). -/
def preparedBody (p : List Byte) (s : State) : State × Reply :=
  match findReel s (item p 0 4) with
  | none => reply .noSuchReel s
  | some i =>
    match vget s.reels i with
    | none => reply .noSuchReel s
    | some r =>
      if r.state != .mounted && r.state != .prepared then reply .wrongState s
      else if !isOnline s r.stand then reply .standNotOnline s
      else
        let r' := { r with state := .prepared, verify := .untested }
        ok [] (declare r' (setReel s i (some r')))

def execPrepared (address : Byte) (p : List Byte) (s : State) : Result :=
  answerAndSend .plain address 0x03 (withLength 4 p (preparedBody p)) s

/-! ## AMEND REEL (R35) -/

/-- The new values of AMEND REEL: all ones is "unchanged" (R181). -/
structure Amendment where
  grade : Option Nat
  caliper : Option Nat
  core : Option Nat
  deriving DecidableEq, Repr

def amendmentItems (p : List Byte) : Amendment :=
  ⟨given 0xFFFFFFFF (item p 4 4), given 0xFFFF (item p 8 2), given 0xFFFF (item p 10 2)⟩

/-- The new values lie in their ranges (R35). -/
def amendmentAccepted (x : Amendment) : Bool :=
  acceptable (fun g => decide (g ≤ 65535)) x.grade && acceptable caliperAccepted x.caliper &&
    acceptable coreAccepted x.core

/-- The record's state takes the amendment (R35). -/
def amendable (r : ReelRecord) (x : Amendment) : Bool :=
  match r.state with
  | .committed | .expired => false
  | .running => x.grade.isNone && x.core.isNone
  | .staged | .mounted | .prepared | .ready => true

/-- The record with the new values written. -/
def amended (r : ReelRecord) (x : Amendment) : ReelRecord :=
  { r with
    grade := x.grade.getD r.grade
    caliper := x.caliper.orElse fun _ => r.caliper
    core := (x.core.map circumferenceOf).getD r.core }

/-- AMEND REEL (R35). -/
def amendReelBody (p : List Byte) (s : State) : State × Reply :=
  let x := amendmentItems p
  match findReel s (item p 0 4) with
  | none => reply .noSuchReel s
  | some i =>
    match vget s.reels i with
    | none => reply .noSuchReel s
    | some r =>
      if !amendmentAccepted x then reply .badValue s
      else if !amendable r x then reply .wrongState s
      else ok [] (setReel s i (some (amended r x)))

def execAmendReel (address : Byte) (p : List Byte) (s : State) : Result :=
  answerCommand .plain address 0x04 (withLength 12 p (amendReelBody p)) s

/-! ## RETIRE REEL (R36) -/

/-- A record that may be retired: STAGED or EXPIRED, with no order tag. -/
def retirable (r : ReelRecord) : Bool := (r.state == .staged || r.state == .expired) && r.tag.isNone

/-- RETIRE REEL (R36). -/
def retireReelBody (p : List Byte) (s : State) : State × Reply :=
  match findReel s (item p 0 4) with
  | none => reply .noSuchReel s
  | some i =>
    if (vget s.reels i).any retirable then ok [] (setReel s i none) else reply .wrongState s

def execRetireReel (address : Byte) (p : List Byte) (s : State) : Result :=
  answerCommand .plain address 0x05 (withLength 4 p (retireReelBody p)) s

/-! ## READ REEL, READ ARM, LIST REELS (R39 to R41) -/

/-- The answer of a lookup that has found a slot. -/
def answerSlot (i : SlotId) (s : State) : State × Reply :=
  match vget s.reels i with
  | none => reply .noSuchReel s
  | some r => ok (recordItems s i r) s

/-- READ REEL (R39). -/
def readReelBody (p : List Byte) (s : State) : State × Reply :=
  match findReel s (item p 0 4) with
  | none => reply .noSuchReel s
  | some i => answerSlot i s

def execReadReel (address : Byte) (p : List Byte) (s : State) : Result :=
  answerCommand .plain address 0x06 (withLength 4 p (readReelBody p)) s

/-- READ ARM (R40). -/
def readArmBody (p : List Byte) (s : State) : State × Reply :=
  match standOf (item p 0 1), armOfCode (item p 1 1) with
  | some st, some arm =>
    match boundSlot s st arm with
    | none => reply .noSuchReel s
    | some i => answerSlot i s
  | _, _ => reply .badValue s

def execReadArm (address : Byte) (p : List Byte) (s : State) : Result :=
  answerCommand .plain address 0x07 (withLength 2 p (readArmBody p)) s

/-- LIST REELS (R41). -/
def listReelsBody (p : List Byte) (s : State) : State × Reply :=
  if 64 < item p 0 1 then reply .badValue s else ok (listItems s (item p 0 1)) s

def execListReels (address : Byte) (p : List Byte) (s : State) : Result :=
  answerCommand .plain address 0x08 (withLength 1 p (listReelsBody p)) s

/-! ## THREAD REEL (R29) -/

/-- A record made RUNNING: the measured fields absent, the flags clear, the verify result kept. -/
def threadedRecord (r : ReelRecord) : ReelRecord :=
  { r with
    state := .running, current := none, remaining := none, learned := none
    runout := false, clamped := false, trackingFault := false }

/-- A record on an arm that THREAD REEL may take. -/
def threadable (r : ReelRecord) : Bool :=
  r.state == .mounted || r.state == .prepared || r.state == .ready

/-- THREAD REEL: the arm's context emptied and a tracker started (R5, R29, R46). -/
def threadReelBody (p : List Byte) (s : State) : State × Reply :=
  match findReel s (item p 0 4) with
  | none => reply .noSuchReel s
  | some i =>
    match vget s.reels i with
    | none => reply .noSuchReel s
    | some r =>
      if !threadable r then reply .wrongState s
      else if !isOnline s r.stand then reply .standNotOnline s
      else
        match r.arm.filter fun arm => armPosition s r.stand arm == some .run with
        | none => reply .armNotReady s
        | some arm =>
          if (runningReel s r.stand).isSome then reply .wrongState s
          else
            ok [] (startTracker r.stand r.reel arm none
              (setArmContext (setReel s i (some (threadedRecord r))) r.stand arm emptyArm))

def execThreadReel (address : Byte) (p : List Byte) (s : State) : Result :=
  answerCommand .plain address 0x09 (withLength 4 p (threadReelBody p)) s

/-! ## STOP REEL (R33, R84) -/

/-- The row of the order whose expiring reel a record is. -/
def expiringOrder (s : State) (r : ReelRecord) : Option (RowId × OrderRow) :=
  (r.tag.bind (rowOfTag s)).bind fun i =>
    ((vget s.rows i).filter fun row => row.expiring == r.reel).map fun row => (i, row)

/-- A record made EXPIRED with its stub estimate (R33). -/
def stoppedRecord (s : State) (r : ReelRecord) : ReelRecord :=
  { r with state := .expired, remaining := reportedRemaining s r, learned := none }

/-- The order cancelled by the stop of its expiring reel, by its state (R84). -/
def cancelStopped (x : Option (RowId × OrderRow)) (s : State) : State :=
  match x with
  | none => s
  | some (i, row) =>
    match row.state with
    | .armed | .held | .accelerating | .matched => closeOrder i .cancelled .reelStopped false s
    | .pasting | .closing | .done | .failed | .dropped | .cancelled => s

/-- STOP REEL (R33, R84). -/
def stopReelBody (p : List Byte) (s : State) : State × Reply :=
  match findReel s (item p 0 4) with
  | none => reply .noSuchReel s
  | some i =>
    match vget s.reels i with
    | none => reply .noSuchReel s
    | some r =>
      if r.state != .running then reply .wrongState s
      else
        let x := expiringOrder s r
        if x.any fun y => y.2.state == .pasting then reply .wrongState s
        else
          ok [] (cancelStopped x (stopTracker r.stand (setReel s i (some (stoppedRecord s r)))))

def execStopReel (address : Byte) (p : List Byte) (s : State) : Result :=
  answerAndSend .plain address 0x0A (withLength 4 p (stopReelBody p)) s

end Sys2Proof.Machine
end

