-- ==== Sys2Proof/Machine/OrderCommands.lean ====
section
/-! DEFINITION. Meanings: the console's commands on splice orders (04_splice_orders.md, R68 to R88). -/

namespace Sys2Proof.Machine

open Sys2Proof

/-! ## ORDER SPLICE (R68 to R71) -/

/-- The rows in the order the search of R68 examines them. -/
def searchOrder (start : RowId) : List RowId := (indices 16).map (fun i => start + i)

/-- The first EMPTY row from the allocation start (R68). -/
def emptyRow (s : State) : Option RowId :=
  (searchOrder s.allocStart).find? fun i => (vget s.rows i).isNone

/-- The running record passes test 5: at RUN and with a remaining length (R70). -/
def runningOrderable (s : State) (r : ReelRecord) : Bool :=
  (r.arm.bind (armPosition s r.stand)) == some .run && (reportedRemaining s r).isSome

/-- The arm of a new reel that passes test 7: READY, of the stand, at SPLICE (R70). -/
def newReelArm (s : State) (st : StandId) (r : ReelRecord) : Option Arm :=
  r.arm.filter fun arm => r.state == .ready && r.stand == st && armPosition s st arm == some .splice

/-- The row of a new order (R71). -/
def newRow (s : State) (tag : Nat) (st : StandId) (expiring newReel : Nat) (arm : Arm) : OrderRow where
  tag := tag
  stand := st
  state := .armed
  expiring := expiring
  newReel := newReel
  newArm := arm
  go := standParam s st 9 == 0
  past := false
  place := none
  distance := none
  commitment := none
  fire := none
  late := false
  speedLow := false
  spacingShort := false
  reason := none
  results := none

/-- The order tag written into a reel's record (R30). -/
def tagReel (tag n : Nat) (s : State) : State := modReel n (fun r => { r with tag := some tag }) s

/-- An order created in a row (R68, R71): the row, the tags, the flag and the evaluation of the new member. -/
def createOrder (i : RowId) (row : OrderRow) (s : State) : State :=
  joinSchedule i row.stand (raiseRow i row.stand (tagReel row.tag row.newReel
    (tagReel row.tag row.expiring (setAllocStart (setRow s i (some row)) (i + 1)))))

/-- The refusals of R70 from test 5 on, and the creation. -/
def placeOrder (tag : Nat) (st : StandId) (new : Nat) (s : State) : State × Reply :=
  match runningReel s st with
  | none => reply .wrongState s
  | some old =>
    if !runningOrderable s old then reply .wrongState s
    else
      match reelOf s new with
      | none => reply .noSuchReel s
      | some r =>
        match newReelArm s st r with
        | none => reply .armNotReady s
        | some arm =>
          match emptyRow s with
          | none => reply .orderTableFull s
          | some i => ok (beBytes 1 i.val) (createOrder i (newRow s tag st old.reel new arm) s)

/-- ORDER SPLICE (R70, R71). -/
def orderSpliceBody (p : List Byte) (s : State) : State × Reply :=
  let tag := item p 0 1
  let new := item p 2 4
  match standOf (item p 1 1) with
  | none => reply .badValue s
  | some st =>
    if 63 < tag || new == 0 then reply .badValue s
    else if (rowOfTag s tag).isSome then reply .tagInUse s
    else if !isOnline s st then reply .standNotOnline s
    else if (openRow s st).isSome || indexInProgress s st then reply .standBusy s
    else placeOrder tag st new s

def execOrderSplice (address : Byte) (p : List Byte) (s : State) : Result :=
  answerAndSend .plain address 0x10 (withLength 6 p (orderSpliceBody p)) s

/-! ## Commands that name an order by its tag (R69) -/

/-- The order of a tag handed to a command, after BAD_VALUE and NO_SUCH_ORDER. -/
def withOrder (p : List Byte) (f : RowId → OrderRow → State → State × Reply) (s : State) : State × Reply :=
  let tag := item p 0 1
  if 63 < tag then reply .badValue s
  else
    match rowOfTag s tag with
    | none => reply .noSuchOrder s
    | some i =>
      match vget s.rows i with
      | none => reply .noSuchOrder s
      | some row => f i row s

/-- CONFIRM by the row's state (R75). A HELD row changes its state to ARMED, which raises its flag before the
commit test (assumption log 25). -/
def confirmRow (i : RowId) (row : OrderRow) (s : State) : State × Reply :=
  match row.state with
  | .armed => ok [] (setRow s i (some { row with go := true }))
  | .held =>
    ok [] (testOrder i (raiseRow i row.stand
      (setRow s i (some { row with go := true, state := .armed, past := true }))))
  | .accelerating | .matched | .pasting | .closing | .done | .failed | .dropped | .cancelled =>
    reply .wrongState s

/-- CONFIRM (R75). -/
def confirmBody (p : List Byte) (s : State) : State × Reply := withOrder p confirmRow s

def execConfirm (address : Byte) (p : List Byte) (s : State) : Result :=
  answerAndSend .plain address 0x11 (withLength 1 p (confirmBody p)) s

/-- CANCEL ORDER by the row's state (R83). -/
def cancelRow (i : RowId) (row : OrderRow) (s : State) : State × Reply :=
  match row.state with
  | .armed | .held | .accelerating | .matched => ok [] (closeOrder i .cancelled .console false s)
  | .pasting | .closing | .done | .failed | .dropped | .cancelled => reply .wrongState s

/-- CANCEL ORDER (R83). -/
def cancelOrderBody (p : List Byte) (s : State) : State × Reply := withOrder p cancelRow s

def execCancelOrder (address : Byte) (p : List Byte) (s : State) : Result :=
  answerAndSend .plain address 0x12 (withLength 1 p (cancelOrderBody p)) s

/-- RELEASE ORDER by the row's state (R87). The flag is gated by the stand the row named (R183). -/
def releaseRow (i : RowId) (row : OrderRow) (s : State) : State × Reply :=
  if row.state.isOpen then reply .wrongState s
  else ok [] (raiseRow i row.stand (setRow s i none))

/-- RELEASE ORDER (R87). -/
def releaseOrderBody (p : List Byte) (s : State) : State × Reply := withOrder p releaseRow s

def execReleaseOrder (address : Byte) (p : List Byte) (s : State) : Result :=
  answerCommand .plain address 0x13 (withLength 1 p (releaseOrderBody p)) s

/-! ## READ ORDER (R88, R182) -/

/-- The row a selector and a number name: 0 a tag, 1 a row number. The outer absence is BAD_VALUE, the inner
NO_SUCH_ORDER. -/
def selectedRow (s : State) (selector n : Nat) : Option (Option RowId) :=
  if selector == 0 then if n ≤ 63 then some (rowOfTag s n) else none
  else if selector == 1 then if h : n < 16 then some (some ⟨n, h⟩) else none
  else none

/-- READ ORDER (R88, R182). That a section above 1 is answered BAD_VALUE also when no order has the tag or row
named, which R88 answers NO_SUCH_ORDER, is the model's choice: the manual gives no order between the two
refusals (assumption log 37). -/
def readOrderBody (p : List Byte) (s : State) : State × Reply :=
  let part := item p 2 1
  match selectedRow s (item p 0 1) (item p 1 1) with
  | none => reply .badValue s
  | some found =>
    if 1 < part then reply .badValue s
    else
      match found with
      | none => reply .noSuchOrder s
      | some i =>
        match vget s.rows i with
        | none => reply .noSuchOrder s
        | some row => ok (if part == 0 then orderItems s i row else orderResultItems row) s

def execReadOrder (address : Byte) (p : List Byte) (s : State) : Result :=
  answerCommand .plain address 0x14 (withLength 3 p (readOrderBody p)) s

end Sys2Proof.Machine
end

