-- ==== Sys2Proof/Machine/PortCommands.lean ====
section
/-! DEFINITION. Meanings: the change flags, SCAN MODE, RESTART, and the frames that are no command of the
table (R178 to R189). -/

namespace Sys2Proof.Machine

open Sys2Proof

/-- CONSOLE_FRAME_DISCARDED (R178): not answered, ends no parameter run, changes nothing. -/
def execConsoleFrameDiscarded (_bytes : List Byte) (s : State) : Result := .next s

/-- ANSWER_FRAME_SEEN (R178): no unit takes further action on an answer frame. -/
def execAnswerFrameSeen (_address _code : Byte) (_p : List Byte) (s : State) : Result := .next s

/-- UNKNOWN_CODE (R179). -/
def execUnknownCode (address code : Byte) (_p : List Byte) (s : State) : Result :=
  answerCommand .plain address code (reply .unknownCode) s

/-- ANSWER_SENT (R178, R179): the port is ready for the next command. -/
def execAnswerSent (s : State) : Result := .next (setAnswer none s)

/-- READ CHANGES (R184). -/
def readChangesBody (s : State) : State × Reply := ok (flagItems s.port.flags) s

def execReadChanges (address : Byte) (p : List Byte) (s : State) : Result :=
  answerCommand .plain address 0x40 (withLength 0 p readChangesBody) s

/-- The change flags named by a mask cleared. -/
def clearFlags (mask : BitVec 28) (s : State) : State :=
  setPort s { s.port with flags := s.port.flags &&& ~~~mask }

/-- ACK CHANGES (R185). -/
def ackChangesBody (p : List Byte) (s : State) : State × Reply :=
  let t := clearFlags (maskOf p) s
  ok (flagItems t.port.flags) t

def execAckChanges (address : Byte) (p : List Byte) (s : State) : Result :=
  answerCommand .plain address 0x41 (withLength 4 p (ackChangesBody p)) s

/-- SCAN MODE (R187). -/
def scanModeBody (p : List Byte) (s : State) : State × Reply :=
  if 1 < item p 0 1 then reply .badValue s else ok [] (takeScanMode (item p 0 1 == 1) s)

def execScanMode (address : Byte) (p : List Byte) (s : State) : Result :=
  answerCommand .honoured address 0x50 (withLength 1 p (scanModeBody p)) s

/-- The refusals of RESTART (R188). A RETRACT whose order is CLOSING falls under the first; otherwise it is in
progress while queued or in exchange. -/
def restartRefused (s : State) : Bool :=
  ((indices 16).any fun i => (vget s.rows i).any fun row => row.state.committed) ||
    (indices 8).any fun st =>
      indexInProgress s st || (vget s.verifies st).isSome || inQueue s st .retract ||
        inExchange s st .retract

/-- Every order tag removed from the records (R44). -/
def dropTags (s : State) : State :=
  { s with reels := s.reels.map fun x => x.map fun r => { r with tag := none } }

/-- The Order Table and the line schedules emptied (R89, R93). -/
def emptyOrders (s : State) : State :=
  { s with
    rows := Vector.replicate 16 none
    allocStart := 0
    schedules := Vector.replicate 4 [] }

/-- Every change flag cleared. -/
def clearAllFlags (s : State) : State := setPort s { s.port with flags := 0 }

/-- RESTART (R188, R189). The taking of the frame has ended the parameter run (R176). -/
def restartBody (s : State) : State × Reply :=
  if restartRefused s then reply .wrongState s
  else ok [] (clearAllFlags (endParamRun (restartBus (dropTags (emptyOrders s)))))

def execRestart (address : Byte) (p : List Byte) (s : State) : Result :=
  answerCommand .plain address 0x51 (withLength 0 p restartBody) s

end Sys2Proof.Machine
end

