-- ==== Sys2Proof/Machine/SettingCommands.lean ====
section
/-! DEFINITION. Meanings: the console's commands on parameters (09_stand_and_line_settings.md). -/

namespace Sys2Proof.Machine

open Sys2Proof

/-- SET PARAMETER (R172, R173): answers the value held, also when a line write is refused (R179). -/
def setParameterBody (p : List Byte) (s : State) : State × Reply :=
  match targetOf (item p 0 1) (item p 1 1) with
  | none => reply .badValue s
  | some t =>
    let i := item p 2 1
    let w := writeParam t i (item p 3 4) s
    (w.1, ⟨if w.2 then .ok else .wrongState, beBytes 4 (readParam w.1 t i)⟩)

def execSetParameter (address : Byte) (p : List Byte) (s : State) : Result :=
  answerAndSend .honoured address 0x30 (withLength 7 p (setParameterBody p)) s

/-- READ PARAMETER (R172). -/
def readParameterBody (p : List Byte) (s : State) : State × Reply :=
  match targetOf (item p 0 1) (item p 1 1) with
  | none => reply .badValue s
  | some t => ok (beBytes 4 (readParam s t (item p 2 1))) s

def execReadParameter (address : Byte) (p : List Byte) (s : State) : Result :=
  answerCommand .plain address 0x31 (withLength 3 p (readParameterBody p)) s

/-- PARAMETER RUN (R176). -/
def parameterRunBody (p : List Byte) (s : State) : State × Reply :=
  match targetOf (item p 0 1) (item p 1 1) with
  | none => reply .badValue s
  | some t => ok [] (openParamRun t (item p 2 1) s)

def execParameterRun (address : Byte) (p : List Byte) (s : State) : Result :=
  answerCommand .honoured address 0x32 (withLength 3 p (parameterRunBody p)) s

/-- A payload that a DATA frame may have (R177). -/
def dataLength (n : Nat) : Bool := n != 0 && decide (n ≤ 48) && n % 4 == 0

/-- The 32-bit values of a DATA frame. -/
def dataValues (p : List Byte) : List Nat :=
  (List.range (p.length / 4)).map fun k => item p (4 * k) 4

/-- The values a DATA frame answers: those held after the frame at its indices (R177). -/
def heldValues (s : State) (t : Target) (i n : Nat) : List Byte :=
  (List.range n).flatMap fun k => beBytes 4 (readParam s t (i + k))

/-- DATA (R177): the values written from the run's next index on, which then stops at 256. -/
def dataBody (p : List Byte) (s : State) : State × Reply :=
  if !dataLength p.length then reply .badLength s
  else
    match s.port.run with
    | none => reply .wrongState s
    | some run =>
      let vs := dataValues p
      let w := writeRun run.target run.next vs s
      let t := openParamRun run.target (min 256 (run.next + vs.length)) w.1
      (t, ⟨if w.2 then .ok else .wrongState, heldValues t run.target run.next vs.length⟩)

def execData (address : Byte) (p : List Byte) (s : State) : Result :=
  answerAndSend .data address 0x33 (dataBody p) s

end Sys2Proof.Machine
end

