-- ==== Sys2Proof/Machine/StandCommands.lean ====
section
/-! DEFINITION. Meanings: the console's commands on stands and lines (R160, R168, R170, R105, R182). -/

namespace Sys2Proof.Machine

open Sys2Proof

/-- INDEX STAND (R160). -/
def indexStandBody (p : List Byte) (s : State) : State × Reply :=
  match standOf (item p 0 1) with
  | none => reply .badValue s
  | some st =>
    if !isOnline s st then reply .standNotOnline s
    else if (openRow s st).isSome then reply .standBusy s
    else if indexInProgress s st || (vget s.verifies st).isSome then reply .wrongState s
    else ok [] (queueRequest st (plainRequest .index none) s)

def execIndexStand (address : Byte) (p : List Byte) (s : State) : Result :=
  answerAndSend .plain address 0x20 (withLength 1 p (indexStandBody p)) s

/-- CLEAR STAND (R168). That a last slot reading without PRESENT refuses it too when its STOP_HELD flag is set
is the model's choice (assumption log 46). -/
def clearStandBody (p : List Byte) (s : State) : State × Reply :=
  match standOf (item p 0 1) with
  | none => reply .badValue s
  | some st =>
    if flagSet s (standBit st) || SlotReading.stopHeld (vget s.bus.slots st) then reply .wrongState s
    else ok [] (settleCondition st (clearContexts st s))

def execClearStand (address : Byte) (p : List Byte) (s : State) : Result :=
  answerAndSend .plain address 0x21 (withLength 1 p (clearStandBody p)) s

/-- The items of a READ STAND section (R182). -/
def standSection (s : State) (st : StandId) (n : Nat) : List Byte :=
  if n == 0 then standItems s st else if n == 1 then busItems s st else spliceItems s st

/-- READ STAND (R15, R66, R132, R149, R170, R182). -/
def readStandBody (p : List Byte) (s : State) : State × Reply :=
  match standOf (item p 0 1) with
  | none => reply .badValue s
  | some st =>
    if 2 < item p 1 1 then reply .badValue s else ok (standSection s st (item p 1 1)) s

def execReadStand (address : Byte) (p : List Byte) (s : State) : Result :=
  answerCommand .plain address 0x22 (withLength 2 p (readStandBody p)) s

/-- The items of a READ LINE section (R182). -/
def lineSection (s : State) (l : LineId) (n : Nat) : List Byte :=
  if n == 0 then lineItems s l else lineEntryItems s l n

/-- READ LINE (R15, R105, R182). -/
def readLineBody (p : List Byte) (s : State) : State × Reply :=
  match lineOfNumber (item p 0 1) with
  | none => reply .badValue s
  | some l =>
    if 8 < item p 1 1 then reply .badValue s else ok (lineSection s l (item p 1 1)) s

def execReadLine (address : Byte) (p : List Byte) (s : State) : Result :=
  answerCommand .plain address 0x23 (withLength 2 p (readLineBody p)) s

end Sys2Proof.Machine
end

