-- ==== Sys2Proof/Machine/Dispatch.lean ====
section
/-! DEFINITION. The dispatch: one arm for each row of spec/opcode_table.json. -/

namespace Sys2Proof.Machine

open Sys2Proof

/-- The effect of a command on everything but the queue. -/
def exec (i : Instr) (s : State) : Host.Outcome State Fault Refusal :=
  match i with
  | .powerOnReset address => Sys2Proof.Machine.execPowerOnReset address s
  | .resetRelease => Sys2Proof.Machine.execResetRelease s
  | .encoderPulse line => Sys2Proof.Machine.execEncoderPulse line s
  | .speedWindowEnd line => Sys2Proof.Machine.execSpeedWindowEnd line s
  | .commitPointReport row => Sys2Proof.Machine.execCommitPointReport row s
  | .latestCommitPointReport row => Sys2Proof.Machine.execLatestCommitPointReport row s
  | .matchDeadlineReport stand => Sys2Proof.Machine.execMatchDeadlineReport stand s
  | .pastePositionReport stand => Sys2Proof.Machine.execPastePositionReport stand s
  | .knifePositionReport stand => Sys2Proof.Machine.execKnifePositionReport stand s
  | .staleLimitReached stand arm => Sys2Proof.Machine.execStaleLimitReached stand arm s
  | .pulseEnd stand output => Sys2Proof.Machine.execPulseEnd stand output s
  | .revolutionMark stand arm => Sys2Proof.Machine.execRevolutionMark stand arm s
  | .tapeMark stand => Sys2Proof.Machine.execTapeMark stand s
  | .scanCall => Sys2Proof.Machine.execScanCall s
  | .quietTimer => Sys2Proof.Machine.execQuietTimer s
  | .scanEnd slots => Sys2Proof.Machine.execScanEnd slots s
  | .stopHoldTimerEnd stand => Sys2Proof.Machine.execStopHoldTimerEnd stand s
  | .accept stand kind arm => Sys2Proof.Machine.execAccept stand kind arm s
  | .refuse stand kind arm reason => Sys2Proof.Machine.execRefuse stand kind arm reason s
  | .replyTimeEnd => Sys2Proof.Machine.execReplyTimeEnd s
  | .grantLapse => Sys2Proof.Machine.execGrantLapse s
  | .readLimit stand read => Sys2Proof.Machine.execReadLimit stand read s
  | .indexTimeout stand => Sys2Proof.Machine.execIndexTimeout stand s
  | .verifyTimeout stand => Sys2Proof.Machine.execVerifyTimeout stand s
  | .cutWaitEnd stand => Sys2Proof.Machine.execCutWaitEnd stand s
  | .retractTimeout stand => Sys2Proof.Machine.execRetractTimeout stand s
  | .response stand body => Sys2Proof.Machine.execResponse stand body s
  | .indexDone stand a b c => Sys2Proof.Machine.execIndexDone stand a b c s
  | .verifyDone stand arm => Sys2Proof.Machine.execVerifyDone stand arm s
  | .armHome stand => Sys2Proof.Machine.execArmHome stand s
  | .cutConfirmed stand => Sys2Proof.Machine.execCutConfirmed stand s
  | .armLoaded stand arm => Sys2Proof.Machine.execArmLoaded stand arm s
  | .armEmptied stand arm => Sys2Proof.Machine.execArmEmptied stand arm s
  | .queryArm stand arm => Sys2Proof.Machine.execQueryArm stand arm s
  | .consoleFrameDiscarded bytes => Sys2Proof.Machine.execConsoleFrameDiscarded bytes s
  | .answerFrameSeen address code payload => Sys2Proof.Machine.execAnswerFrameSeen address code payload s
  | .unknownCode address code payload => Sys2Proof.Machine.execUnknownCode address code payload s
  | .enterReel address payload => Sys2Proof.Machine.execEnterReel address payload s
  | .mountReel address payload => Sys2Proof.Machine.execMountReel address payload s
  | .prepared address payload => Sys2Proof.Machine.execPrepared address payload s
  | .amendReel address payload => Sys2Proof.Machine.execAmendReel address payload s
  | .retireReel address payload => Sys2Proof.Machine.execRetireReel address payload s
  | .readReel address payload => Sys2Proof.Machine.execReadReel address payload s
  | .readArm address payload => Sys2Proof.Machine.execReadArm address payload s
  | .listReels address payload => Sys2Proof.Machine.execListReels address payload s
  | .threadReel address payload => Sys2Proof.Machine.execThreadReel address payload s
  | .stopReel address payload => Sys2Proof.Machine.execStopReel address payload s
  | .orderSplice address payload => Sys2Proof.Machine.execOrderSplice address payload s
  | .confirm address payload => Sys2Proof.Machine.execConfirm address payload s
  | .cancelOrder address payload => Sys2Proof.Machine.execCancelOrder address payload s
  | .releaseOrder address payload => Sys2Proof.Machine.execReleaseOrder address payload s
  | .readOrder address payload => Sys2Proof.Machine.execReadOrder address payload s
  | .indexStand address payload => Sys2Proof.Machine.execIndexStand address payload s
  | .clearStand address payload => Sys2Proof.Machine.execClearStand address payload s
  | .readStand address payload => Sys2Proof.Machine.execReadStand address payload s
  | .readLine address payload => Sys2Proof.Machine.execReadLine address payload s
  | .setParameter address payload => Sys2Proof.Machine.execSetParameter address payload s
  | .readParameter address payload => Sys2Proof.Machine.execReadParameter address payload s
  | .parameterRun address payload => Sys2Proof.Machine.execParameterRun address payload s
  | .data address payload => Sys2Proof.Machine.execData address payload s
  | .readChanges address payload => Sys2Proof.Machine.execReadChanges address payload s
  | .ackChanges address payload => Sys2Proof.Machine.execAckChanges address payload s
  | .scanMode address payload => Sys2Proof.Machine.execScanMode address payload s
  | .restart address payload => Sys2Proof.Machine.execRestart address payload s
  | .answerSent => Sys2Proof.Machine.execAnswerSent s
  | .unroutedStandMessage stand => Sys2Proof.Machine.execUnroutedStandMessage stand s

end Sys2Proof.Machine
end

