-- ==== Sys2Proof/Machine/Step.lean ====
section
/-! DEFINITION. The step: the command at the front of the queue, and on an empty queue the part's own time. -/

namespace Sys2Proof.Machine

open Sys2Proof

/-- What the part does on an empty queue: its own report or timer end that is due, else its clock goes on
by 1 ms (assumption log 1 and 2). -/
def idle (s : State) : Host.Outcome State Fault Refusal :=
  match dueCommand s with
  | some c => exec c s
  | none => .next (setNow s (s.now + 1))

/-- One step: the command at the front of the queue is carried out with the queue's rest. -/
def step (s : State) : Host.Outcome State Fault Refusal :=
  match s.pending with
  | c :: rest => exec c { s with pending := rest }
  | [] => idle s

/-- The state with the command that a table word spells put at the front of its queue; no word spells one. -/
def State.withFetchWord (s : State) (nbits w : Nat) : State :=
  match decodeTableWord nbits w with
  | some c => { s with pending := c :: s.pending }
  | none => s

end Sys2Proof.Machine
end

