-- ==== Sys2Proof/Safety.lean ====
section
/-! DEFINITION. The terms that statements about safe runs use: frames, what a commit and a stand that leaves
service make of a state, the laws of the tables, the ranges of the settings, and the law of the request queues. -/

namespace Sys2Proof.Machine

open Sys2Proof

/-! ## Frames -/

/-- The parts of the state, one for each field. -/
inductive Block
  | now
  | resetHeld
  | lines
  | arms
  | outputs
  | reels
  | verifies
  | trackers
  | rows
  | allocStart
  | schedules
  | sequencers
  | bus
  | stands
  | settings
  | port
  | pending
  deriving DecidableEq, Repr

/-- Two states agree in a part. -/
def sameIn (s t : State) : Block → Prop
  | .now => t.now = s.now
  | .resetHeld => t.resetHeld = s.resetHeld
  | .lines => t.lines = s.lines
  | .arms => t.arms = s.arms
  | .outputs => t.outputs = s.outputs
  | .reels => t.reels = s.reels
  | .verifies => t.verifies = s.verifies
  | .trackers => t.trackers = s.trackers
  | .rows => t.rows = s.rows
  | .allocStart => t.allocStart = s.allocStart
  | .schedules => t.schedules = s.schedules
  | .sequencers => t.sequencers = s.sequencers
  | .bus => t.bus = s.bus
  | .stands => t.stands = s.stands
  | .settings => t.settings = s.settings
  | .port => t.port = s.port
  | .pending => t.pending = s.pending

/-- Every part but those named is unchanged. -/
def OnlyIn (changed : List Block) (s t : State) : Prop := ∀ b, b ∉ changed → sameIn s t b

/-- Every entry of a table but one is unchanged. -/
def OnlyAt {α : Type} {n : Nat} (i : Fin n) (v w : Vector α n) : Prop := ∀ j, j ≠ i → vget w j = vget v j

/-- The controller's fields but its queues, its pair and what the arbiter keeps are unchanged. -/
def SameScan (a b : Bus) : Prop :=
  b.quiet = a.quiet ∧ b.scan = a.scan ∧ b.lastEnd = a.lastEnd ∧ b.slots = a.slots

/-! ## Console frames -/

/-- A frame of an address reaches the port and is carried out: RESET is released, no answer is pending, and
the address is the unit's own (R178, R190). -/
def Addressed (s : State) (address : Byte) : Prop :=
  s.resetHeld = false ∧ s.port.answer = none ∧ s.port.address ≠ 0 ∧
    address = s.port.address.setWidth 8

/-- The port after a command but DATA has been answered: no parameter run, and the answer frame of the code
with bit 7 set, the status and the items (R176, R179). -/
def answering (p : Port) (code : Byte) (st : Status) (items : List Byte) : Port :=
  { p with run := none, answer := some ⟨code ||| 0x80, statusCode st :: items⟩ }

/-- The port with a stand's change flag raised, when its report enable is on (R183). -/
def raisedPort (s : State) (st : StandId) : Port :=
  if standParam s st 13 == 1 then { s.port with flags := s.port.flags ||| (1#28 <<< st.val) } else s.port

/-- The port with a row's change flag raised, when the report enable of the row's stand is on (R183). -/
def raisedRowPort (s : State) (r : RowId) (st : StandId) : Port :=
  if standParam s st 13 == 1 then { s.port with flags := s.port.flags ||| (1#28 <<< (8 + r.val)) }
  else s.port

/-- The bus with a request placed in a stand's queue (R138). -/
def queuedBus (b : Bus) (st : StandId) (r : Request) : Bus :=
  { b with queues := vset b.queues st (placeRequest r (vget b.queues st)) }

/-- An exchange on the pair has ended: t is what the arbiter makes of a state whose pair is FREE (R142). -/
def ExchangeEnded (t : State) : Prop := ∃ u, t = arbitrate u ∧ u.bus.pair = .free

/-- A message of stand st has ended its grant (R147): the stand's lapse count is 0, and t is what the arbiter
makes of a state whose pair is FREE and whose bids and turns are those of s. -/
def GrantEnded (st : StandId) (s t : State) : Prop :=
  ∃ u, t = arbitrate u ∧ u.bus.pair = .free ∧ u.bus.lapses = vset s.bus.lapses st 0 ∧
    u.bus.bids = s.bus.bids ∧ u.bus.lastTurn = s.bus.lastTurn ∧
    u.bus.requestPtr = s.bus.requestPtr ∧ u.bus.grantPtr = s.bus.grantPtr

/-- A request of stand st is asked for: it waits in the stand's queue, or the arbiter has sent it already. -/
def Asked (st : StandId) (r : Request) (t : State) : Prop :=
  r ∈ vget t.bus.queues st ∨ ∃ lim, t.bus.pair = .request st r false lim

/-! ## What becomes of a record, a row and a stand -/

/-- Two records have the same number, stand, grade, core circumference and caliper: the items that ENTER REEL
enters and AMEND REEL may change (R19, R35), but for the outside circumference. -/
def SameEntered (x y : ReelRecord) : Prop :=
  y.reel = x.reel ∧ y.stand = x.stand ∧ y.grade = x.grade ∧ y.core = x.core ∧ y.caliper = x.caliper

/-- What a reel table may make of one slot without a new record: the slot is freed, or holds the record that
was there, with its number, stand, grade, core circumference and caliper (R16, R19, R35). -/
def RecordKept (a b : Option ReelRecord) : Prop := ∀ y, b = some y → ∃ x, a = some x ∧ SameEntered x y

/-- What may become of one row without a new order or a release: an EMPTY row stays EMPTY, an order keeps its
tag, its stand, its reels and its arm, a closed row keeps every field, and no closed row opens (R69, R86). -/
def RowKept (a b : Option OrderRow) : Prop :=
  match a, b with
  | none, y => y = none
  | some _, none => False
  | some x, some y =>
    y.tag = x.tag ∧ y.stand = x.stand ∧ y.expiring = x.expiring ∧ y.newReel = x.newReel ∧
      y.newArm = x.newArm ∧ (x.state.isOpen = false → y = x)

/-- What may become of one stand context without a CLEAR STAND: FAULT and LOCKED_OUT stay, no stand becomes
OFFLINE, and no hard error is removed (R154, R162). -/
def StandKept (x y : StandContext) : Prop :=
  (x.condition = .fault → y.condition = .fault) ∧
    (x.condition = .lockedOut → y.condition = .lockedOut) ∧
    (y.condition = .offline → x.condition = .offline) ∧
    ∀ e, holdsError x.errors e = true → holdsError y.errors e = true

/-- The row of an order that has committed (R78, R108), by its placement, its commit distance and the outside
circumference c of its new reel: the settings frozen, retries used 0, LATE at or after the latest commit point,
the match deadline the later of Plate − 2 × C_o and the commit position plus A. -/
def committedRow (s : State) (row : OrderRow) (p : Placement) (a c : Nat) : OrderRow := { row with
  state := .accelerating, past := false, speedLow := false
  late := decide ((standPos s row.stand - (p.plate - BitVec.ofNat 32 a)).toNat < 2147483648)
  commitment := some {
    position := standPos s row.stand
    frozen := ⟨standParam s row.stand 4, standParam s row.stand 5, standParam s row.stand 6,
      standParam s row.stand 7, standParam s row.stand 8, standParam s row.stand 12⟩
    deadline := later (p.plate - BitVec.ofNat 32 (2 * c)) (standPos s row.stand + BitVec.ofNat 32 a)
    retries := 0 } }

/-- No order of a stand's line but row r waits for placement, so that an evaluation which r causes moves
no other row. -/
def AloneOnLine (s : State) (st : StandId) (r : RowId) : Prop :=
  ∀ e ∈ vget s.schedules (lineOf s st), e.row ≠ r → e.frozen = true

/-- The commit of row r has been made (R30, R78, R107, R108): the row is the committed one and its flag is
raised; when no other order of the line waits for placement, the stand's sequencer holds the order with its
ACCEL awaited, ACCEL is asked for and the READY new reel is COMMITTED. -/
def CommitMade (r : RowId) (row : OrderRow) (p : Placement) (a : Nat) (new : ReelRecord) (c : Nat)
    (s t : State) : Prop :=
  vget t.rows r = some (committedRow s row p a c) ∧
    (standParam s row.stand 13 = 1 → flagSet t (8 + r.val) = true) ∧
    (AloneOnLine s row.stand r → vget t.sequencers row.stand = some (freshSequencer r row.newArm
        ((reelOf s row.expiring).bind (·.arm)) c (standParam s row.stand 7)) ∧
      Asked row.stand ⟨.accel, some row.newArm, some c, none⟩ t ∧
      (new.state = .ready → new.tag = some row.tag →
        reelOf t row.newReel = some { new with state := .committed })) ∧
    OnlyIn [.reels, .verifies, .rows, .schedules, .sequencers, .bus, .port] s t

/-- A stand has left service (R163, R165): its condition, its stop-hold timer stopped, its verification run
ended, its change flag raised. -/
def OutOfService (st : StandId) (c : Condition) (s t : State) : Prop :=
  (vget t.stands st).condition = c ∧ (vget t.stands st).stopHold = none ∧ vget t.verifies st = none ∧
    (standParam s st 13 = 1 → flagSet t st.val = true)

/-- An order is past its paste boundary: CLOSING, or PASTING with its PASTE fired (R129, R163). -/
def pastBoundary (s : State) (st : StandId) (row : OrderRow) : Prop :=
  row.state = .closing ∨ (row.state = .pasting ∧ pasteFiredFor s st = true)

/-- What the open order of a stand that leaves service meets (R129, R163, R165). Before its paste boundary it
closes FAILED with the reason, and from a committed state the sequencer is IDLE and COAST asked for unless the
stand is LOST (R81). Past the boundary the row stays and the sequencer marks fault after paste. -/
def OrderFaulted (st : StandId) (why : OrderReason) (s t : State) : Prop :=
  ∀ r row, openRow s st = some r → vget s.rows r = some row →
    (¬ pastBoundary s st row →
      vget t.rows r = some { row with
        state := .failed, past := false, place := none, results := none, reason := some why } ∧
      (standParam s st 13 = 1 → flagSet t (8 + r.val) = true) ∧
      (row.state.waiting = false → AloneOnLine s st r → vget t.sequencers st = none ∧
        ((vget t.stands st).errors.lost = false → Asked st ⟨.coast, some row.newArm, none, none⟩ t))) ∧
    (pastBoundary s st row → vget t.rows r = some row ∧
      vget t.sequencers st = (vget s.sequencers st).map fun q => { q with faultAfterPaste := true })

/-- What the new reel of that order meets when it closes (R30, R32, R163): COMMITTED it becomes PREPARED with
verify result NONE, READY it stays READY, and its order tag is removed. -/
def NewReelReturned (st : StandId) (s t : State) : Prop :=
  ∀ r row new, openRow s st = some r → vget s.rows r = some row → ¬ pastBoundary s st row →
    AloneOnLine s st r → reelOf s row.newReel = some new → new.tag = some row.tag →
    (new.state = .ready → reelOf t row.newReel = some { new with tag := none }) ∧
    (new.state = .committed → row.state.waiting = false → reelOf t row.newReel = some { new with
      state := .prepared, verify := .untested, tag := none })

/-- Every change flag set before is set after (R183). -/
def FlagsKept (a b : BitVec 28) : Prop := ∀ i, a.getLsbD i = true → b.getLsbD i = true

/-! ## Laws of the tables -/

/-- The reel numbers of the records are pairwise different (R19). -/
def ReelNumbersDiffer (s : State) : Prop :=
  ∀ i j x y, vget s.reels i = some x → vget s.reels j = some y → x.reel = y.reel → i = j

/-- The tags of the non-EMPTY rows are pairwise different (R69). -/
def TagsDiffer (s : State) : Prop :=
  ∀ i j x y, vget s.rows i = some x → vget s.rows j = some y → x.tag = y.tag → i = j

/-- A stand has at most one open order (R70). -/
def OneOpenOrder (s : State) : Prop :=
  ∀ i j x y, vget s.rows i = some x → vget s.rows j = some y → x.stand = y.stand →
    x.state.isOpen = true → y.state.isOpen = true → i = j

/-! ## Ranges of the settings (R172) -/

/-- A value lies in the range of its parameter. -/
def inRange (p : ParamSpec) (v : Nat) : Prop := p.lo ≤ v ∧ v ≤ p.hi

/-- Every parameter and every floor in force lies in its range. -/
def SettingsInRange (x : Settings) : Prop :=
  (∀ st i, inRange (vget standSpecs i) (vget (vget x.stands st) i)) ∧
    (∀ l i, inRange (vget lineSpecs i) (vget (vget x.lines l) i)) ∧
    ∀ l, inRange (vget lineSpecs 1) (vget x.floors l).measure ∧
      inRange (vget lineSpecs 2) (vget x.floors l).splice

/-! ## The request queues (R138) -/

/-- A request names an arm exactly when its kind has one. -/
def wellArmed (r : Request) : Bool := r.kind.hasArm == r.arm.isSome

/-- A queue holds no two requests of one kind and arm, the drive requests of an arm being one kind. -/
def QueueOk (q : List Request) : Prop :=
  (∀ r ∈ q, wellArmed r = true) ∧ q.Pairwise fun a b => sameRequest a b = false

/-- Every stand's queue is one that R138 allows. -/
def QueuesOk (s : State) : Prop := ∀ st, QueueOk (vget s.bus.queues st)

/-- The arbiter leaves nothing waiting on a FREE pair (R140): then every queue is empty and no stand bids. -/
def NothingWaits (s : State) : Prop :=
  s.bus.pair = .free → ∀ st, vget s.bus.queues st = [] ∧ vget s.bus.bids st = false

/-! ## Web lines -/

/-- The line on which a report's position watch is held (R2); none for a command that is no such report. -/
def watchLine (s : State) : Instr → Option LineId
  | .commitPointReport r | .latestCommitPointReport r => (vget s.rows r).map fun row => lineOf s row.stand
  | .matchDeadlineReport st | .pastePositionReport st | .knifePositionReport st
  | .staleLimitReached st _ => some (lineOf s st)
  | _ => none

/-- A report's position watch is held and its target reached (R2). -/
def watchDue (s : State) : Instr → Bool
  | .commitPointReport r => commitPointDue s r
  | .latestCommitPointReport r => latestDue s r
  | .matchDeadlineReport st => deadlineDue s st
  | .pastePositionReport st => pasteDue s st
  | .knifePositionReport st => knifeDue s st
  | .staleLimitReached st arm => staleDue s st arm
  | _ => false

/-- No position watch of a line is due, but for those whose reports are named to be taken later. -/
def NoneDue (l : LineId) (later : List Instr) (s : State) : Prop :=
  ∀ c, c ∉ later → watchLine s c = some l → watchDue s c = false

/-- What a line counter can show (R3) and an arm context can count (R9). -/
def LinesInRange (s : State) : Prop := ∀ l, (vget s.lines l).speed ≤ maxSpeed

/-- The tape counts are held at 15 (R9). -/
def TapeCountsInRange (s : State) : Prop := ∀ st arm, (armContext s st arm).tapeCount ≤ 15

end Sys2Proof.Machine
end

