-- ==== Sys2Proof/Certificates/Slice0/Obligations.lean ====
section
/-! DEFINITION. The statements for the provers: each one a rule of the manual, or a law that follows from its
rules, about the commands of the SC-24 and the states they leave. -/

open Sys2Proof Sys2Proof.Machine

/-! ## The step and the queue -/

/-- The model's step: the command at the front of the queue is carried out on the state with the queue's rest.
-/
def Obligations.StepRunsFrontCommand : Prop :=
  ∀ (c : Instr) (rest : List Instr) (s : State), s.pending = c :: rest →
    step s = exec c { s with pending := rest }

/-- On an empty queue a report or timer end of the part that is due is carried out, and otherwise the clock
goes on by 1 ms (the model's choice, assumption log 1 and 2). -/
def Obligations.EmptyQueueStep : Prop :=
  ∀ s : State, s.pending = [] →
    (∀ c, dueCommand s = some c → step s = exec c s) ∧
    (dueCommand s = none → step s = .next { s with now := s.now + 1 })

/-- Every command completes, and none adds to the queue of commands or takes from it. -/
def Obligations.EveryCommandCompletes : Prop :=
  ∀ (c : Instr) (s : State), ∃ t, exec c s = .next t ∧ t.pending = s.pending

/-! ## Frames on the two links -/

/-- The frame of a console command, received, is that command (R178, R181). The bit order of the CRC is the
model's (assumption log 19). -/
def Obligations.ConsoleFramesDecode : Prop :=
  ∀ (c : Instr) (bytes : List Byte), c.wf = true → consoleFrameOf c = some bytes →
    consoleCommandOf bytes = c

/-- The frame of a stand's message, received, is that message; the two answers to a request are read outside a
grant exchange (R153). The bit order of the CRC and the reading of the answers in a grant are the model's
(assumption log 19, 20, 28). -/
def Obligations.StandFramesDecode : Prop :=
  ∀ (c : Instr) (bytes : List Byte), c.wf = true → standFrameOf c = some bytes →
    standCommandOf false bytes = some c ∧
      ((∀ st k arm, c ≠ .accept st k arm) → (∀ st k arm why, c ≠ .refuse st k arm why) →
        standCommandOf true bytes = some c)

/-- When a received console frame is discarded: its first byte is not 0xA5, its length byte exceeds 58, its
byte count is not 6 + n, or its CRC is wrong (R178). The bit order of the CRC is the model's (assumption log
19). -/
def Obligations.DiscardedFrames : Prop :=
  (∀ bytes : List Byte, bytes.length < 4 → parseConsole bytes = none) ∧
    ∀ (marker address code len : Byte) (rest : List Byte),
      (parseConsole (marker :: address :: code :: len :: rest) = none ↔
        marker ≠ 0xA5 ∨ 58 < len.toNat ∨ rest.length ≠ len.toNat + 2 ∨
          rest.drop len.toNat ≠
            beBytes 2 (crc16 (address :: code :: len :: rest.take len.toNat)).toNat)

/-! ## What every command keeps -/

/-- No command but CLEAR STAND and power-on reset takes a stand out of FAULT or LOCKED_OUT, makes a stand
OFFLINE, or removes a hard error (R154, R162). -/
def Obligations.OnlyClearStandLeavesFault : Prop :=
  ∀ (c : Instr) (s t : State), (∀ a p, c ≠ .clearStand a p) → (∀ a, c ≠ .powerOnReset a) →
    exec c s = .next t → ∀ st, StandKept (vget s.stands st) (vget t.stands st)

/-- No command but RELEASE ORDER, RESTART and power-on reset empties a row, and none but these changes a
closed row or the tag, stand, reels or arm of an order (R69, R86). -/
def Obligations.ClosedRowsAreKept : Prop :=
  ∀ (c : Instr) (s t : State), (∀ a p, c ≠ .releaseOrder a p) → (∀ a p, c ≠ .restart a p) →
    (∀ a, c ≠ .powerOnReset a) → exec c s = .next t →
    ∀ r row, vget s.rows r = some row → RowKept (some row) (vget t.rows r)

/-- No command but ENTER REEL puts a record into a FREE slot, and none but AMEND REEL changes the number,
stand, grade, core circumference or caliper of the record that a slot holds (R16, R19, R35). -/
def Obligations.RecordsKeepTheirSlots : Prop :=
  ∀ (c : Instr) (s t : State), exec c s = .next t → ∀ i,
    ((∀ a p, c ≠ .enterReel a p) → vget s.reels i = none → vget t.reels i = none) ∧
    ((∀ a p, c ≠ .amendReel a p) → ∀ x y, vget s.reels i = some x → vget t.reels i = some y →
      SameEntered x y)

/-- No command but ACK CHANGES, RESTART and power-on reset clears a change flag (R183, R185, R189). -/
def Obligations.FlagsStaySet : Prop :=
  ∀ (c : Instr) (s t : State), (∀ a p, c ≠ .ackChanges a p) → (∀ a p, c ≠ .restart a p) →
    (∀ a, c ≠ .powerOnReset a) → exec c s = .next t → FlagsKept s.port.flags t.port.flags

/-! ## Laws that every step keeps -/

/-- Every step keeps each parameter and each floor in force in its range (R171, R172, R174). -/
def Obligations.SettingsStayInRange : Prop :=
  ∀ s t : State, SettingsInRange s.settings → step s = .next t → SettingsInRange t.settings

/-- Every step keeps the reel numbers of the records pairwise different (R19), the tags of the non-EMPTY rows
pairwise different (R69), and each stand at no more than one open order (R70). -/
def Obligations.TableLawsStay : Prop :=
  ∀ s t : State, step s = .next t →
    (ReelNumbersDiffer s → ReelNumbersDiffer t) ∧ (TagsDiffer s → TagsDiffer t) ∧
      (OneOpenOrder s → OneOpenOrder t)

/-- Every step keeps every request queue lawful: no two requests of one kind and arm, the drive requests of an
arm being one kind; and a lawful queue holds at most 12 requests (R138). -/
def Obligations.QueuesStayLawful : Prop :=
  (∀ s t : State, QueuesOk s → step s = .next t → QueuesOk t) ∧
    ∀ q : List Request, QueueOk q → q.length ≤ 12

/-- Every step leaves nothing waiting on a FREE pair: then no request is queued and no stand bids (R140; that
the choice is made at the end of a step is the model's, assumption log 9). -/
def Obligations.NothingWaitsOnFreePair : Prop :=
  ∀ s t : State, NothingWaits s → step s = .next t → NothingWaits t

/-- Every step keeps the line speeds at most 200,000 and the tape counts at most 15 (R3, R9). -/
def Obligations.CountersStayInRange : Prop :=
  ∀ s t : State, LinesInRange s ∧ TapeCountsInRange s → step s = .next t →
    LinesInRange t ∧ TapeCountsInRange t

/-- The state after reset meets every law that the steps keep. -/
def Obligations.ResetMeetsLaws : Prop :=
  SettingsInRange State.reset.settings ∧ ReelNumbersDiffer State.reset ∧ TagsDiffer State.reset ∧
    OneOpenOrder State.reset ∧ QueuesOk State.reset ∧ NothingWaits State.reset ∧
    LinesInRange State.reset ∧ TapeCountsInRange State.reset

/-! ## Power-on reset and the scan's start -/

/-- Power-on reset leaves every block as its reset rule states (R1, R5, R14, R43, R45, R89, R93, R106, R150,
R154, R171, R190): counters and contexts empty, tables empty, stands OFFLINE, every value its default, no
change flag, and the unit address read from the pins. Every line's first speed window is then to end at 10 ms
(R3); that the clock is 0 and that the four windows begin together is the model's (assumption log 13, 26). -/
def Obligations.PowerOnReset : Prop :=
  ∀ (address : BitVec 5) (s : State), ∃ t, exec (.powerOnReset address) s = .next t ∧
    t.now = 0 ∧ (∀ l, vget t.lines l = ⟨0, 0, 0, false, 10⟩) ∧
    (∀ st arm, armContext t st arm = ⟨none, none, 0, none⟩) ∧
    (∀ st, vget t.outputs st = ⟨none, none⟩) ∧ (∀ i, vget t.reels i = none) ∧
    (∀ st, vget t.verifies st = none) ∧ (∀ st, vget t.trackers st = none) ∧
    (∀ r, vget t.rows r = none) ∧ t.allocStart = 0 ∧ (∀ l, vget t.schedules l = []) ∧
    (∀ st, vget t.sequencers st = none) ∧
    (t.bus.quiet = false ∧ t.bus.pair = .free ∧ t.bus.lastTurn = .none ∧ t.bus.requestPtr = 0 ∧
      t.bus.grantPtr = 0) ∧
    (∀ st, vget t.bus.slots st = 0 ∧ vget t.bus.bids st = false ∧ vget t.bus.queues st = [] ∧
      vget t.bus.reads st = [] ∧ vget t.bus.indexes st = none ∧ vget t.bus.lapses st = 0) ∧
    (∀ st, vget t.stands st = ⟨.offline, none, ⟨false, false, false⟩,
      ⟨false, false, false, false, false, false⟩, 0, none, .none⟩) ∧
    (∀ st i, standParam t st i = (vget standSpecs i).default) ∧
    (∀ l i, lineParam t l i = (vget lineSpecs i).default) ∧
    (∀ l, vget t.settings.floors l = ⟨3000, 40000⟩) ∧
    t.port = ⟨address, none, 0, none⟩ ∧ t.pending = s.pending

/-- A scan starts at the release of RESET, and in quiet mode on the resting line at a stand's call or when 100
ms have passed since the last END slot; its START slot carries the quiet-mode flag (R134, R135, R153). That
the quiet timer's end brings the clock up to it is the model's (assumption log 3). -/
def Obligations.ScansStart : Prop :=
  (∀ s : State, s.resetHeld = true → exec .resetRelease s = .next { s with
      resetHeld := false, bus := { s.bus with scan := some (if s.bus.quiet then 1 else 0) } }) ∧
    (∀ s : State, s.bus.quiet = true → s.bus.scan = none →
      exec .scanCall s = .next { s with bus := { s.bus with scan := some 1 } }) ∧
    (∀ s : State, s.bus.quiet = false ∨ s.bus.scan ≠ none → exec .scanCall s = .next s) ∧
    ∀ (s : State) (e : Nat), s.bus.quiet = true → s.bus.scan = none → s.bus.lastEnd = some e →
      exec .quietTimer s = .next { s with
        now := max s.now (e + 100), bus := { s.bus with scan := some 1 } }

/-! ## Web lines, arm contexts and direct outputs -/

/-- An encoder pulse advances its line's position by one modulo 2^32 and adds one to the window count (R1); it
touches no other line, no stand context, no setting and no clock. When the pulse makes no position watch of
the line due it changes nothing else. At the pulse that makes one watch of the line due, that watch reports
(R2): the pulse does what the watch's report command does in the state after it, stated for a report that
leaves no watch of the line due. A report that the queue names before the line's next pulse is left to its
turn there, among the events that come together with the pulse (R80): that the queue says which is taken first
is the model's (assumption log 43). -/
def Obligations.EncoderPulse : Prop :=
  ∀ (l : LineId) (s : State),
    let pulsed : State := { s with lines := vset s.lines l { vget s.lines l with
      position := (vget s.lines l).position + 1, windowCount := (vget s.lines l).windowCount + 1 } }
    (∃ t, exec (.encoderPulse l) s = .next t ∧ t.lines = pulsed.lines ∧
      OnlyIn [.lines, .arms, .outputs, .reels, .verifies, .trackers, .rows, .schedules, .sequencers,
        .bus, .port] s t) ∧
    (NothingWaits s → NoneDue l (together l s) pulsed → exec (.encoderPulse l) s = .next pulsed) ∧
    ∀ c, c ∉ together l s → NothingWaits s → watchLine pulsed c = some l → watchDue pulsed c = true →
      (∀ d, d ≠ c → d ∉ together l s → watchLine pulsed d = some l → watchDue pulsed d = false) →
      (∀ t, exec c pulsed = .next t → NoneDue l (together l s) t) →
      exec (.encoderPulse l) s = exec c pulsed

/-- A speed window end sets the line speed to v = 100 × n, saturated at 200,000 with OVERSPEED, returns the
window count to 0, raises the line's flag when OVERSPEED is newly set, makes the floors last written the
floors in force and begins the next window of 10 ms (R3, R174); it touches no arm, no output and no stand
context (R4). A tracker in WARMING, TRACKING or LEARNED enters HOLD below the measure floor (R61), a tracker
in HOLD leaves it at or above the floor (R62), and any other keeps its state (R63); each with the RUNOUT check
(R58). An ARMED row past its commit point with go set is tested again (R77): it commits at or above the splice
floor, and stays with SPEED_LOW below it. Below the splice floor an ACCELERATING or MATCHED order closes
FAILED(SPEED_LOW) (R112). The clock is brought up to the window's end, which is the model's (assumption log
3). -/
def Obligations.SpeedWindowEnd : Prop :=
  ∀ (l : LineId) (s : State), ∃ t, exec (.speedWindowEnd l) s = .next t ∧
    let n := (vget s.lines l).windowCount
    let v := min (100 * n) 200000
    let measure := lineParam s l 1
    let splice := lineParam s l 2
    vget t.lines l = ⟨(vget s.lines l).position, 0, v, decide (200000 < 100 * n),
      (vget s.lines l).windowEnd + 10⟩ ∧
    OnlyAt l s.lines t.lines ∧ t.now = max s.now (vget s.lines l).windowEnd ∧
    vget t.settings.floors l = ⟨measure, splice⟩ ∧ OnlyAt l s.settings.floors t.settings.floors ∧
    t.settings.stands = s.settings.stands ∧ t.settings.lines = s.settings.lines ∧
    (200000 < 100 * n → (vget s.lines l).overspeed = false → lineParam s l 3 = 1 →
      flagSet t (24 + l.val) = true) ∧
    (∀ st, lineOf s st ≠ l → vget t.trackers st = vget s.trackers st) ∧
    (∀ st x, lineOf s st = l → vget s.trackers st = some x →
      let ranOut := decide (extrapolated x (standPos s st) = some 0)
      ((x.state = .warming ∨ x.state = .tracking ∨ x.state = .learned) → v < measure →
        vget t.trackers st = some { x with
          state := .hold, window := [], rejects := 0, runoutHeld := ranOut } ∧
        (x.state = .learned → (∀ r, pastOnLine s l r = false) →
          (∀ st', lineOf s st' = l → vget s.sequencers st' = none) →
          (reelOf t x.reel).bind (·.learned) = none)) ∧
      (x.state = .hold → measure ≤ v → vget t.trackers st = some { x with
        state := if x.mark.isSome then .tracking else .warming
        window := [], rejects := 0, relaxed := true, runoutHeld := ranOut }) ∧
      (x.state = .fault ∨ x.state = .hold ∧ v < measure ∨ x.state ≠ .hold ∧ measure ≤ v →
        vget t.trackers st = some { x with runoutHeld := ranOut })) ∧
    (∀ r row p a, vget s.rows r = some row → lineOf s row.stand = l → row.state = .armed →
      row.past = true → row.go = true → row.place = some p → row.distance = some a →
      (∀ r', r' ≠ r → pastOnLine s l r' = false) →
      (splice ≤ v → ∃ c, c.position = standPos s row.stand ∧ vget t.rows r = some { row with
        state := .accelerating, past := false, speedLow := false, commitment := some c
        late := decide ((standPos s row.stand - (p.plate - BitVec.ofNat 32 a)).toNat < 2147483648) }) ∧
      (v < splice → (∀ st, lineOf s st = l → vget s.sequencers st = none) →
        2147483648 ≤ (standPos s row.stand - (p.plate - BitVec.ofNat 32 a)).toNat →
        vget t.rows r = some { row with speedLow := true })) ∧
    (∀ st q row, OneOpenOrder s → lineOf s st = l → vget s.sequencers st = some q →
      (q.phase = .accelerating ∨ q.phase = .matched) → vget s.rows q.row = some row → row.stand = st →
      (row.state = .accelerating ∨ row.state = .matched) → v < splice →
      vget t.rows q.row = some { row with
        state := .failed, past := false, place := none, results := none, reason := some .speedLow } ∧
      ((∀ e ∈ vget s.schedules l, e.frozen = true) →
        (∀ st', st' ≠ st → lineOf s st' = l → vget s.sequencers st' = none) →
        vget t.sequencers st = none)) ∧
    OnlyIn [.now, .lines, .settings, .reels, .verifies, .trackers, .rows, .schedules, .sequencers, .bus,
      .port] s t

/-- A revolution mark latches the line position, clears the tape count and sets the stale limit 2^30 ahead; it
closes an interval when the context held a last mark (R6, R8). It touches no other arm context, and no output
and no stand context. Of a TURNING verification of the arm, the first mark after the ACCEPT opens the first
interval that the run takes, and each mark that closes one after it adds one to the interval count, held at
255, and keeps the interval's tape count as the newest of the last two; a verification that waits for its
ACCEPT or is of another arm takes nothing (R25). That the run records in a field of its own that its opening
mark has come is the model's (assumption log 29). -/
def Obligations.RevolutionMark : Prop :=
  ∀ (st : StandId) (arm : Arm) (s : State), ∃ t, exec (.revolutionMark st arm) s = .next t ∧
    armContext t st arm = ⟨some (standPos s st),
      (armContext s st arm).lastMark.map fun m => (standPos s st - m).toNat, 0,
      some (standPos s st + 0x40000000#32)⟩ ∧
    (∀ st' arm', (st', arm') ≠ (st, arm) → armContext t st' arm' = armContext s st' arm') ∧
    OnlyIn [.arms, .reels, .verifies, .trackers, .rows, .schedules, .sequencers, .bus, .port] s t ∧
    ((armContext s st arm).lastMark = none → OnlyIn [.arms, .verifies] s t) ∧
    (∀ v, vget s.verifies st = some v → v.arm ≠ arm ∨ v.turning = none → vget t.verifies st = some v) ∧
    ∀ v x, vget s.verifies st = some v → v.arm = arm → v.turning = some x →
      vget t.verifies st = some { v with turning := some (
        if x.marked = false then { x with marked := true }
        else if (armContext s st arm).lastMark = none then x
        else
          let counts := x.lastTwo.take 2 ++ [(armContext s st arm).tapeCount]
          { x with count := min 255 (x.count + 1), lastTwo := counts.drop (counts.length - 2) }) }

/-- A tape mark counts at the arm that the spider map shows at SPLICE, up to 15, and nowhere when no arm is
shown there (R9). At a MATCHED order's new arm, with the arm's last interval C_new in tolerance and the mark
at or after Q − C_new, it starts PASTING (R116 to R118): the row holds the fire positions, the sequencer C_new
and the line speed as the paste speed, and the row's flag is raised; stated for a paste position ahead of the
line, where the guard puts it. Any other mark changes nothing else (R10). -/
def Obligations.TapeMark : Prop :=
  ∀ (st : StandId) (s : State),
    (spliceArm s st = none → exec (.tapeMark st) s = .next s) ∧
    ∀ arm, spliceArm s st = some arm → ∃ t, exec (.tapeMark st) s = .next t ∧
      armContext t st arm = { armContext s st arm with
        tapeCount := min 15 ((armContext s st arm).tapeCount + 1) } ∧
      (∀ st' arm', (st', arm') ≠ (st, arm) → armContext t st' arm' = armContext s st' arm') ∧
      let starts : Sequencer → OrderRow → Placement → Nat → Prop := fun q row p w =>
        vget s.sequencers st = some q ∧ q.phase = .matched ∧ q.newArm = arm ∧
          (armContext s st arm).lastInterval = some w ∧ vget s.rows q.row = some row ∧
          row.place = some p ∧ q.circumference ≤ w + q.tolerance ∧ w ≤ q.circumference + q.tolerance ∧
          (standPos s st - (p.q - BitVec.ofNat 32 w)).toNat < 2147483648
      (NothingWaits s → (∀ q row p w, ¬ starts q row p w) → OnlyIn [.arms] s t) ∧
      ∀ q row p w c, NothingWaits s → starts q row p w → row.commitment = some c → row.state = .matched →
        let v := standSpeed s st
        let f := firePositions (standPos s st) w v c.frozen
        2147483648 ≤ (standPos s st - f.pp).toNat →
        vget t.rows q.row = some { row with state := .pasting, fire := some f } ∧
        vget t.sequencers st = some { q with
          phase := .pasting, cNew := some w, pasteSpeed := some v, pasteFired := false
          faultAfterPaste := false } ∧
        t.port = raisedRowPort s q.row st ∧ OnlyAt st s.sequencers t.sequencers ∧
        OnlyAt q.row s.rows t.rows ∧ OnlyIn [.arms, .rows, .sequencers, .port] s t

/-- A reached stale limit empties its arm context (R7), and a pulse end deasserts its output (R12); nothing
else changes but the clock, which the pulse end brings up to its time. That the pulse end brings the clock up
to it is the model's (assumption log 3). -/
def Obligations.StaleLimitAndPulseEnd : Prop :=
  (∀ (st : StandId) (arm : Arm) (s : State) (p : Pos), (armContext s st arm).staleLimit = some p →
    (standPos s st - p).toNat < 2147483648 → ∃ t, exec (.staleLimitReached st arm) s = .next t ∧
      armContext t st arm = ⟨none, none, 0, none⟩ ∧
      (∀ st' arm', (st', arm') ≠ (st, arm) → armContext t st' arm' = armContext s st' arm') ∧
      OnlyIn [.arms] s t) ∧
    (∀ (st : StandId) (s : State) (e : Nat), (vget s.outputs st).paste = some e →
      exec (.pulseEnd st .paste) s = .next { s with
        now := max s.now e
        outputs := vset s.outputs st { vget s.outputs st with paste := none } }) ∧
    ∀ (st : StandId) (s : State) (e : Nat), (vget s.outputs st).knife = some e →
      exec (.pulseEnd st .knife) s = .next { s with
        now := max s.now e
        outputs := vset s.outputs st { vget s.outputs st with knife := none } }

/-! ## The running reel -/

/-- A closed interval at the tracker of its arm. A plausible one is accepted (R50, R52): the window of at most
32 takes it, the decrement in use is the nominal one below 32 samples and else the learned one, clamped to its
range (R54, R55), the remaining length is floor(8 × (C² − Ck²) / δ16) at the mark (R56), and the record is
written. One that is not plausible is rejected, and the third reject makes the tracker FAULT (R51). In FAULT
it is a recovery sample: with a candidate within the tolerance the tracker recovers, else it is the candidate
or leaves none (R63, R64). In HOLD, and wherever no sample is accepted, only the RUNOUT check is made (R49,
R58). Stated for a stand without a sequencer on a line none of whose orders waits for placement, where the
evaluation that follows moves nothing. -/
def Obligations.TrackerSamples : Prop :=
  ∀ (st : StandId) (arm : Arm) (s : State) (x : Tracker) (r : ReelRecord) (m : Pos) (c : Nat),
    vget s.trackers st = some x → x.arm = arm → reelOf s x.reel = some r →
    (armContext s st arm).lastMark = some m → c = (standPos s st - m).toNat →
    vget s.sequencers st = none → (∀ e ∈ vget s.schedules (lineOf s st), e.frozen = true) →
    ∃ t, exec (.revolutionMark st arm) s = .next t ∧
      let samples : Prop := x.state = .warming ∨ x.state = .tracking ∨ x.state = .learned
      let first : Prop := r.core < c ∧ c ≤ 42000
      let second : Prop := ∀ p, x.cPrev = some p → c ≤ p + 16 ∧ (x.relaxed = true ∨ p ≤ c + 64)
      let nominal := caliperOf s r * 201 / 200
      let ranOut := decide (extrapolated x (standPos s st) = some 0)
      let checked : ReelRecord := if x.runoutHeld = false ∧ ranOut = true
        then { r with runout := true, remaining := some 0 } else r
      let checkedPort : Port := if x.runoutHeld = false ∧ ranOut = true ∧ r.runout = false
        then raisedPort s st else s.port
      let written : List Nat → Nat → Bool → Prop := fun window d clamped =>
        let rem := 8 * (c * c - r.core * r.core) / d
        let full := decide (32 ≤ window.length)
        vget t.trackers st = some { x with
          state := if full then .learned else .tracking
          window := window, cPrev := some c, rejects := 0, candidate := if x.state = .fault then none
            else x.candidate
          relaxed := if x.state = .fault then x.relaxed else false
          delta := some d, runoutHeld := false, mark := some ⟨standPos s st, rem⟩
          clampReported := x.clampReported || clamped } ∧
        reelOf t x.reel = some { r with
          current := some c, remaining := some rem, learned := if full then some d else none
          runout := decide (rem = 0), clamped := clamped
          trackingFault := if x.state = .fault then false else r.trackingFault } ∧
        t.port = if (rem = 0 ∧ r.runout = false) ∨ (clamped = true ∧ x.clampReported = false)
          then raisedPort s st else s.port
      (samples → first → second →
        let window := (if x.window.length < 32 then x.window else x.window.tail) ++ [c]
        let raw : Int := 16 * ((window.headD 0 : Int) - (c : Int)) / 31
        let lo := max 1 (nominal / 2)
        if window.length < 32 then written window nominal false
        else if raw < (lo : Int) then written window lo true
        else if (2 * nominal : Int) < raw then written window (2 * nominal) true
        else written window raw.toNat false) ∧
      (samples → ¬ (first ∧ second) →
        (x.rejects < 2 →
          vget t.trackers st = some { x with rejects := x.rejects + 1, runoutHeld := ranOut } ∧
          reelOf t x.reel = some checked ∧ t.port = checkedPort) ∧
        (2 ≤ x.rejects → vget t.trackers st = some { x with
            state := .fault, window := [], rejects := 0, candidate := none, relaxed := false
            runoutHeld := ranOut } ∧
          reelOf t x.reel = some { checked with
            trackingFault := true, learned := if x.state = .learned then none else r.learned } ∧
          t.port = raisedPort s st)) ∧
      (x.state = .fault →
        let near : Nat → Prop := fun k =>
          c ≤ k + (16 + (nominal + 15) / 16) ∧ k ≤ c + (16 + (nominal + 15) / 16)
        (¬ first → vget t.trackers st = some { x with candidate := none, runoutHeld := ranOut } ∧
          reelOf t x.reel = some checked ∧ t.port = checkedPort) ∧
        (first → (∀ k, x.candidate = some k → ¬ near k) →
          vget t.trackers st = some { x with candidate := some c, runoutHeld := ranOut } ∧
          reelOf t x.reel = some checked ∧ t.port = checkedPort) ∧
        ∀ k, first → x.candidate = some k → near k → written [k, c] nominal false) ∧
      (x.state = .hold → vget t.trackers st = some { x with runoutHeld := ranOut } ∧
        reelOf t x.reel = some checked ∧ t.port = checkedPort)

/-! ## Placement and the waiting order -/

/-- One entry's placement: without SPACING_SHORT its Q is the first position at or after its Ppref that lies
in no blocked interval of the positions it was placed around, and Plate is at or after it; with SPACING_SHORT
its Q is its Ppref, and every position from there to its Plate is blocked (R98, R99). An evaluation of a line
places its PLACED entries with the positions their trackers answer (R96), in ascending order of Plate by
offset and then of row (R97), each around the FROZEN Qs and those placed before it, so that in that order no
entry but one with SPACING_SHORT lies in the blocked interval of an earlier one (R99); each entry has its
commit distance (R101). The line's flag is raised when an entry becomes newly short and the line's report
enable is on (R100). When no commit point and no latest commit point of an entry is reached, the schedule then
holds the FROZEN entries and those placed, and the row of each holds what was handed to it (R73). The bounds
are stated for positions within 2^30 web steps and a spacing of at most 500 m, so that no sum passes half the
range of a line position. -/
def Obligations.PlacementKeepsSpacing : Prop :=
  (∀ (gmin : Nat) (qs : List Pos) (e : Entry) (base : Pos), gmin ≤ 5000000 →
    (e.place.ppref - base).toNat < 1073741824 → (∀ q ∈ qs, (q - base).toNat < 1073741824) →
    let x := placeEntry gmin qs e
    let taken : Pos → Prop := fun y => ∃ q ∈ qs, 0 < (y - q + BitVec.ofNat 32 gmin).toNat ∧
      (y - q + BitVec.ofNat 32 gmin).toNat < 2 * gmin
    x = { e with place := { e.place with q := x.place.q }, spacingShort := x.spacingShort } ∧
    (x.spacingShort = false → (x.place.q - e.place.ppref).toNat < 2147483648 ∧
      (e.place.plate - x.place.q).toNat < 2147483648 ∧ ¬ taken x.place.q ∧
      ∀ y, (y - e.place.ppref).toNat < (x.place.q - e.place.ppref).toNat → taken y) ∧
    (x.spacingShort = true → x.place.q = e.place.ppref ∧
      ((e.place.plate - base).toNat < 1073741824 → ∀ y, (y - base).toNat < 1073741824 →
        (y - e.place.ppref).toNat < 2147483648 → (e.place.plate - y).toNat < 2147483648 → taken y))) ∧
  ∀ (l : LineId) (s : State),
    let now := (vget s.lines l).position
    let gmin := spacingSteps s l
    let members := vget s.schedules l
    let frozen := members.filter fun e => e.frozen
    let given : Entry → Pos × Pos := fun e =>
      (splicePositions s e.stand).getD (e.place.ppref, e.place.plate)
    let es := placedEntries l s
    (es.map fun e => (e.row, e.stand, e.frozen, e.place.ppref, e.place.plate)).Perm
      ((members.filter fun e => !e.frozen).map fun e =>
        (e.row, e.stand, false, (given e).1, (given e).2)) ∧
    (es.Pairwise fun a b => (a.place.plate - now).toInt < (b.place.plate - now).toInt ∨
      a.place.plate = b.place.plate ∧ a.row ≤ b.row) ∧
    (∀ (i : Nat) (e : Entry), es[i]? = some e →
      placeEntry gmin ((frozen ++ es.take i).map fun b => b.place.q) e = e) ∧
    (∀ e ∈ es, ∀ row new c, vget s.rows e.row = some row → reelOf s row.newReel = some new →
      new.outside = some c → e.distance = (vget s.lines l).speed * standParam s e.stand 3 / 1000 + 3 * c) ∧
    (∀ base : Pos, gmin ≤ 5000000 → (∀ e ∈ frozen, (e.place.q - base).toNat < 1073741824) →
      (∀ e ∈ members, e.frozen = false → ((given e).1 - base).toNat < 1073741824 ∧
        ((given e).2 - base).toNat < 1073741824) →
      (frozen ++ es).Pairwise fun a b => b.frozen = false → b.spacingShort = false →
        ¬ (0 < (b.place.q - a.place.q + BitVec.ofNat 32 gmin).toNat ∧
          (b.place.q - a.place.q + BitVec.ofNat 32 gmin).toNat < 2 * gmin)) ∧
    (flagSet (evalOnce l s).1 (24 + l.val) = true ↔ flagSet s (24 + l.val) = true ∨
      (lineParam s l 3 = 1 ∧ ∃ e ∈ es, e.spacingShort = true ∧
        ∃ b ∈ members, b.row = e.row ∧ b.spacingShort = false)) ∧
    ((∀ e ∈ es, 2147483648 ≤ (now - (e.place.q - BitVec.ofNat 32 e.distance)).toNat ∧
        2147483648 ≤ (now - (e.place.plate - BitVec.ofNat 32 e.distance)).toNat) →
      evaluate l s = (evalOnce l s).1 ∧ vget (evaluate l s).schedules l = frozen ++ es ∧
      ∀ e ∈ es, (∀ x ∈ es, x.row = e.row → x = e) → ∀ row, vget s.rows e.row = some row →
        row.state.waiting = true → vget (evaluate l s).rows e.row = some { row with
          state := .armed, past := false, place := some e.place, distance := some e.distance
          spacingShort := e.spacingShort, speedLow := row.speedLow && !row.past })

/-- At a reached commit point with go set and the line speed at or above the splice floor in force, the order
commits (R76, R78): ACCELERATING, the commit position, the settings frozen, retries used 0, LATE when the
latest commit point is reached too, the match deadline the later of Plate − 2 × C_o and the commit position
plus A (R108), and the row's flag raised. When no other order of the line waits for placement, the stand's
sequencer holds the order with its ACCEL awaited, ACCEL for the new arm carries C_o, and the READY new reel is
COMMITTED (R30, R107). No tracker, arm context, output, stand context or setting changes. That the ACCEL may
be sent within the command, if the pair is FREE, is the model's (assumption log 9). -/
def Obligations.CommitPointCommits : Prop :=
  ∀ (r : RowId) (s : State) (row : OrderRow) (p : Placement) (a c : Nat) (new : ReelRecord),
    vget s.rows r = some row → row.state = .armed → row.past = false → row.go = true →
    row.place = some p → row.distance = some a →
    (standPos s row.stand - (p.q - BitVec.ofNat 32 a)).toNat < 2147483648 →
    (vget s.settings.floors (lineOf s row.stand)).splice ≤ standSpeed s row.stand →
    reelOf s row.newReel = some new → new.outside = some c →
    ∃ t, exec (.commitPointReport r) s = .next t ∧ CommitMade r row p a new c s t

/-- The commit test at a reached commit point (R76): with go clear the row becomes HELD and its flag is raised
before the latest commit point, and is DROPPED(NOT_CONFIRMED) at or after it; with go set and the line below
the splice floor it stays ARMED, past its commit point and SPEED_LOW, before it, and is DROPPED(SPEED_LOW) at
or after it. At a reached latest commit point (R79) a HELD row is DROPPED(NOT_CONFIRMED), a row ARMED past its
commit point is DROPPED(SPEED_LOW), and a row ARMED and not past is tested: DROPPED(NOT_CONFIRMED) without go,
DROPPED(SPEED_LOW) below the splice floor, else committed with LATE set (R78). A drop makes the positions
absent, raises the row's flag and leaves the rest of the row (R81). No tracker, arm context, output, stand
context or setting changes. That the ACCEL of a commit may be sent within the command is the model's
(assumption log 9). -/
def Obligations.WaitingOrdersHoldOrDrop : Prop :=
  ∀ (r : RowId) (s : State) (row : OrderRow) (p : Placement) (a : Nat),
    vget s.rows r = some row → row.place = some p → row.distance = some a →
    let slow : Prop := standSpeed s row.stand < (vget s.settings.floors (lineOf s row.stand)).splice
    let atLimit : Prop := (standPos s row.stand - (p.plate - BitVec.ofNat 32 a)).toNat < 2147483648
    let drops : Instr → OrderReason → Prop := fun c why => ∃ t, exec c s = .next t ∧
      vget t.rows r = some { row with
        state := .dropped, past := false, place := none, results := none, reason := some why } ∧
      (standParam s row.stand 13 = 1 → flagSet t (8 + r.val) = true) ∧
      OnlyIn [.reels, .verifies, .rows, .schedules, .sequencers, .bus, .port] s t
    (row.state = .armed → row.past = false →
      (standPos s row.stand - (p.q - BitVec.ofNat 32 a)).toNat < 2147483648 →
      (row.go = false → ¬ atLimit → NothingWaits s → exec (.commitPointReport r) s = .next { s with
        rows := vset s.rows r (some { row with state := .held })
        port := raisedRowPort s r row.stand }) ∧
      (row.go = false → atLimit → drops (.commitPointReport r) .notConfirmed) ∧
      (row.go = true → slow → ¬ atLimit → NothingWaits s → exec (.commitPointReport r) s = .next { s with
        rows := vset s.rows r (some { row with past := true, speedLow := true }) }) ∧
      (row.go = true → slow → atLimit → drops (.commitPointReport r) .speedLow)) ∧
    (atLimit →
      (row.state = .held → drops (.latestCommitPointReport r) .notConfirmed) ∧
      (row.state = .armed → row.past = true → drops (.latestCommitPointReport r) .speedLow) ∧
      (row.state = .armed → row.past = false →
        (row.go = false → drops (.latestCommitPointReport r) .notConfirmed) ∧
        (row.go = true → slow → drops (.latestCommitPointReport r) .speedLow) ∧
        ∀ new c, row.go = true → ¬ slow → reelOf s row.newReel = some new → new.outside = some c →
          (committedRow s row p a c).late = true ∧
          ∃ t, exec (.latestCommitPointReport r) s = .next t ∧ CommitMade r row p a new c s t))

/-! ## The splice sequencer -/

/-- At a reached match deadline in ACCELERATING the order closes FAILED(ACCEL_TIMEOUT) (R111, R81): the row
keeps its commit and loses its positions, and with no order of the line waiting for placement the sequencer is
IDLE. No tracker, arm context, output or stand context changes. -/
def Obligations.MatchDeadlineCloses : Prop :=
  ∀ (st : StandId) (s : State) (q : Sequencer) (row : OrderRow) (c : Commitment),
    vget s.sequencers st = some q → q.phase = .accelerating → vget s.rows q.row = some row →
    row.state = .accelerating → row.stand = st → row.commitment = some c →
    (standPos s st - c.deadline).toNat < 2147483648 →
    ∃ t, exec (.matchDeadlineReport st) s = .next t ∧
      vget t.rows q.row = some { row with
        state := .failed, past := false, place := none, results := none
        reason := some .accelTimeout } ∧
      ((∀ e ∈ vget s.schedules (lineOf s st), e.frozen = true) → vget t.sequencers st = none) ∧
      OnlyIn [.reels, .verifies, .rows, .schedules, .sequencers, .bus, .port] s t

/-- A closed interval of the new arm at the stand's sequencer. In ACCELERATING with ACCEL accepted the second
interval in tolerance in a row makes the sequencer and the row MATCHED and raises the row's flag, the first
begins the run and one out of tolerance ends it (R110). In MATCHED the second interval out of tolerance in a
row is a match loss (R113): below the frozen retry limit ACCEL is queued again and the order is ACCELERATING
with one retry more, or FAILED(ACCEL_TIMEOUT) with its deadline passed; at the limit it is FAILED(MATCH_LOST)
(R114). Any other interval in MATCHED is a tape-search revolution (R115): the second in a row without a tape
mark closes the order FAILED(TAPE_NOT_FOUND). A close returns the new reel, MOUNTED after TAPE_NOT_FOUND, else
PREPARED (R32). That the arbiter's choice (R140) after the queued ACCEL is made at the end of the command is
the model's (assumption log 9). Stated for an arm that no tracker and no verification of the stand follows. -/
def Obligations.MatchIntervals : Prop :=
  ∀ (st : StandId) (arm : Arm) (s : State) (q : Sequencer) (row : OrderRow) (m : Pos) (w : Nat),
    NothingWaits s → vget s.sequencers st = some q → q.newArm = arm → vget s.rows q.row = some row →
    (armContext s st arm).lastMark = some m → w = (standPos s st - m).toNat →
    (∀ x, vget s.trackers st = some x → x.arm ≠ arm) →
    (∀ v, vget s.verifies st = some v → v.arm ≠ arm) →
    let inTol : Prop := q.circumference ≤ w + q.tolerance ∧ w ≤ q.circumference + q.tolerance
    let marked : Vector (PerArm ArmContext) 8 := vset s.arms st (armSet (vget s.arms st) arm
      ⟨some (standPos s st), some w, 0, some (standPos s st + 0x40000000#32)⟩)
    let becomes : Sequencer → Prop := fun q' => exec (.revolutionMark st arm) s =
      .next { s with arms := marked, sequencers := vset s.sequencers st (some q') }
    let closes : Commitment → OrderReason → Prop := fun c why => ∃ t,
      exec (.revolutionMark st arm) s = .next t ∧ vget t.rows q.row = some { row with
        state := .failed, past := false, place := none, commitment := some c, results := none
        reason := some why } ∧
      ((∀ e ∈ vget s.schedules (lineOf s st), e.frozen = true) → vget t.sequencers st = none ∧
        ∀ new, reelOf s row.newReel = some new → new.tag = some row.tag → new.state = .committed →
          reelOf t row.newReel = some { new with
            state := if why = .tapeNotFound then .mounted else .prepared
            verify := .untested, tag := none }) ∧
      OnlyIn [.arms, .reels, .verifies, .rows, .schedules, .sequencers, .bus, .port] s t
    (q.phase = .accelerating →
      (q.accepted = true → inTol → q.inRun = true → row.state = .accelerating →
        exec (.revolutionMark st arm) s = .next { s with
          arms := marked
          sequencers := vset s.sequencers st (some { q with
            phase := .matched, inRun := false, outRun := false, missRun := false })
          rows := vset s.rows q.row (some { row with state := .matched })
          port := raisedRowPort s q.row st }) ∧
      (q.accepted = true → inTol → q.inRun = false → becomes { q with inRun := true }) ∧
      (q.accepted = true → ¬ inTol → becomes { q with inRun := false }) ∧
      (q.accepted = false → becomes q)) ∧
    (q.phase = .matched → ∀ c, row.state = .matched → row.stand = st → row.commitment = some c →
      let again : Commitment := { c with retries := c.retries + 1 }
      (¬ inTol → q.outRun = true →
        (c.retries < c.frozen.retryLimit → 2147483648 ≤ (standPos s st - c.deadline).toNat →
          exec (.revolutionMark st arm) s = .next (arbitrate { s with
            arms := marked
            bus := queuedBus s.bus st ⟨.accel, some arm, some q.circumference, none⟩
            sequencers := vset s.sequencers st (some { q with
              phase := .accelerating, accepted := false, inRun := false, outRun := false
              missRun := false })
            rows := vset s.rows q.row (some { row with
              state := .accelerating, commitment := some again })
            port := raisedRowPort s q.row st })) ∧
        (c.retries < c.frozen.retryLimit → (standPos s st - c.deadline).toNat < 2147483648 →
          closes again .accelTimeout) ∧
        (c.frozen.retryLimit ≤ c.retries → closes c .matchLost)) ∧
      (inTol ∨ q.outRun = false →
        ((armContext s st arm).tapeCount = 0 → q.missRun = true → closes c .tapeNotFound) ∧
        ((armContext s st arm).tapeCount = 0 → q.missRun = false →
          becomes { q with outRun := decide (¬ inTol), missRun := true }) ∧
        ((armContext s st arm).tapeCount ≠ 0 →
          becomes { q with outRun := decide (¬ inTol), missRun := false }))) ∧
    (q.phase = .pasting ∨ q.phase = .closing → becomes q)

/-- The fire positions from a tape mark (R117, R118): Dn = floor(C_new × θ / 3600), L = floor(v × T_arm /
1000), k the smallest number of revolutions for which Dn + k × C_new − L is 200 or more, Pn = Pt + Dn + k ×
C_new, Pp = Pn − L and Pk = Pn + K. -/
def Obligations.FirePositionsFromTape : Prop :=
  ∀ (pt : Pos) (c v : Nat) (fz : Frozen), 0 < c →
    let f := firePositions pt c v fz
    let dn := c * fz.theta / 3600
    let lead := v * fz.tArm / 1000
    lead + 200 ≤ dn + f.k * c ∧ (∀ j, j < f.k → dn + j * c < lead + 200) ∧ f.pt = pt ∧
      f.pn = pt + BitVec.ofNat 32 (dn + f.k * c) ∧ f.pp = f.pn - BitVec.ofNat 32 lead ∧
      f.pk = f.pn + BitVec.ofNat 32 fz.knifeDelay

/-- At the paste position, with the knife position ahead, PASTE is asserted for the frozen pulse width and the
paste boundary is crossed; nothing else changes (R119, R12, R13). -/
def Obligations.PasteFires : Prop :=
  ∀ (st : StandId) (s : State) (q : Sequencer) (row : OrderRow) (f : FirePositions) (c : Commitment),
    NothingWaits s → vget s.sequencers st = some q → q.phase = .pasting → q.pasteFired = false →
    vget s.rows q.row = some row → row.fire = some f → row.commitment = some c →
    (standPos s st - f.pp).toNat < 2147483648 → 2147483648 ≤ (standPos s st - f.pk).toNat →
    exec (.pastePositionReport st) s = .next { s with
      sequencers := vset s.sequencers st (some { q with pasteFired := true })
      outputs := vset s.outputs st { vget s.outputs st with
        paste := some (match (vget s.outputs st).paste with
          | none => s.now + c.frozen.pulseWidth
          | some e => max e (s.now + c.frozen.pulseWidth)) } }

/-- At the knife position KNIFE is asserted for the frozen pulse width, an asserted pulse extended (R13), the
old reel becomes EXPIRED with the stub estimate of its tracker at Pk, the new reel becomes RUNNING with no
measured field, the tracker takes it with C_prev = C_new, the row becomes CLOSING with its flag raised, and
the sequencer enters CLOSING with its cut wait of 2,000 ms and its retract wait of 3,000 ms (R31, R47, R120,
R121). On a stand that is not LOST BRAKE for the old arm and then RETRACT are queued; on a LOST stand neither
is queued and retract ended is yes at once. That the arbiter then chooses, at the end of the command, is the
model's (assumption log 9). Stated for two different reels that still carry the order's tag on a line none of
whose other orders waits for placement. -/
def Obligations.KnifeFires : Prop :=
  ∀ (st : StandId) (s : State) (q : Sequencer) (row : OrderRow) (f : FirePositions) (c : Commitment)
    (x : Tracker) (old new : ReelRecord),
    vget s.sequencers st = some q → q.phase = .pasting → q.pasteFired = true →
    vget s.rows q.row = some row → row.state = .pasting → row.fire = some f → row.commitment = some c →
    (standPos s st - f.pk).toNat < 2147483648 →
    row.expiring ≠ row.newReel →
    reelOf s row.expiring = some old → old.tag = some row.tag → old.state = .running →
    reelOf s row.newReel = some new → new.tag = some row.tag → new.state = .committed →
    vget s.trackers st = some x → x.reel = row.expiring →
    (∀ e ∈ vget s.schedules (lineOf s st), e.frozen = true) →
    let lost := (vget s.stands st).errors.lost
    let braked := match q.oldArm with
      | some arm => queuedBus s.bus st ⟨.brake, some arm, none, none⟩
      | none => s.bus
    ∃ t, exec (.knifePositionReport st) s = .next t ∧
      reelOf t row.expiring = some { old with
        state := .expired, remaining := extrapolated x f.pk, learned := none } ∧
      reelOf t row.newReel = some { new with
        state := .running, current := none, remaining := none, learned := none
        runout := false, clamped := false, trackingFault := false } ∧
      vget t.trackers st = some (freshTracker row.newReel q.newArm q.cNew) ∧
      vget t.sequencers st = some { q with
        phase := .closing, stub := extrapolated x f.pk, cutConfirmed := false
        cutWait := some (s.now + 2000), retractEnded := lost, retractWait := some (s.now + 3000) } ∧
      t.bus = (arbitrate { s with bus :=
        if lost = true then s.bus else queuedBus braked st ⟨.retract, none, none, none⟩ }).bus ∧
      vget t.rows q.row = some { row with state := .closing } ∧
      (standParam s st 13 = 1 → flagSet t (8 + q.row.val) = true) ∧
      vget t.outputs st = { vget s.outputs st with
        knife := some (match (vget s.outputs st).knife with
          | none => s.now + c.frozen.pulseWidth
          | some e => max e (s.now + c.frozen.pulseWidth)) } ∧
      (∀ e ∈ vget t.schedules (lineOf s st), e.row ≠ q.row) ∧
      OnlyIn [.outputs, .reels, .trackers, .rows, .schedules, .sequencers, .bus, .port] s t

/-- The five ways in which a CLOSING order becomes DONE with its results (R125, R86). With the retract part
met, the end of the cut wait and CUT CONFIRMED each close it, cut confirmed no and yes (R122); with the cut
part met, the end of the retract wait, ARM HOME and the stand's REFUSE of RETRACT each close it (R123). The
sequencer is then IDLE. The end of a retract wait with retract ended already yes, as after a knife on a LOST
stand, stops the wait and closes nothing: R123 takes an end of RETRACT only while it is no, and that the wait
is then over without RETRACT_TIMEOUT is the model's inference (assumption log 23). CUT CONFIRMED and ARM HOME
come on a grant of the stand, which they end (R147). That the end of a wait is taken before its time brings
the clock up to it, and that the arbiter then chooses, is the model's (assumption log 3, 9). -/
def Obligations.ClosingEndsDone : Prop :=
  ∀ (st : StandId) (s : State) (q : Sequencer) (row : OrderRow) (f : FirePositions) (e : Nat),
    vget s.sequencers st = some q → q.phase = .closing → vget s.rows q.row = some row →
    row.state = .closing → row.stand = st → row.fire = some f →
    let closed : Bool → OrderRow := fun cut => { row with
      state := .done, past := false, place := none, reason := none
      results := some ⟨f.pn, q.stub, cut, q.faultAfterPaste⟩ }
    let ends : Instr → Bool → (State → Prop) → Prop := fun c cut also => ∃ t, exec c s = .next t ∧
      vget t.rows q.row = some (closed cut) ∧ vget t.sequencers st = none ∧
      OnlyAt q.row s.rows t.rows ∧ OnlyAt st s.sequencers t.sequencers ∧ also t ∧
      OnlyIn [.now, .reels, .rows, .schedules, .sequencers, .bus, .stands, .port] s t
    (q.retractEnded = true → q.retractWait = some e → exec (.retractTimeout st) s = .next (arbitrate { s with
      now := max s.now e
      sequencers := vset s.sequencers st (some { q with retractWait := none }) })) ∧
    (q.cutWait = some e → q.cutConfirmed = false → q.retractEnded = true →
      ends (.cutWaitEnd st) false fun t => t.now = max s.now e ∧ t.stands = s.stands) ∧
    (q.cutWait = some e → q.retractEnded = true → granted s st = true →
      ends (.cutConfirmed st) true fun t => t.now = s.now ∧ t.stands = s.stands ∧ GrantEnded st s t) ∧
    (q.retractEnded = false → q.cutConfirmed = true ∨ q.cutWait = none →
      (q.retractWait = some e → ends (.retractTimeout st) q.cutConfirmed fun t =>
        t.now = max s.now e ∧
          vget t.stands st = { vget s.stands st with outcome := .retractTimeout }) ∧
      (granted s st = true → ends (.armHome st) q.cutConfirmed fun t =>
        t.now = s.now ∧ t.stands = s.stands ∧ GrantEnded st s t) ∧
      ∀ r lim why, s.bus.pair = .request st r false lim → r.kind = .retract →
        ends (.refuse st r.kind r.arm why) q.cutConfirmed fun t => t.now = s.now ∧
          vget t.stands st = { vget s.stands st with outcome := .retractRefused why })

/-! ## The stand bus -/

/-- The arbiter's choice on a FREE pair (R140, R141): a grant when the last turn was a request and a stand
bids, else the head of the first sendable queue from the request pointer, else a grant; the turn's pointer
moves past the stand chosen, the exchange has 20 ms, and a granted stand leaves the bid set. That the
exchange's time runs from the choice, and the frame kept as sent, are the model's (assumption log 10, 30). -/
def Obligations.ArbiterTurns : Prop :=
  ∀ s : State, s.bus.pair = .free →
    (∀ st, (s.bus.lastTurn = .request ∨ ∀ x, vget s.bus.queues x = []) →
      (cyclic s.bus.grantPtr).find? (fun x => vget s.bus.bids x) = some st →
      arbitrate s = { s with bus := { s.bus with
        bids := vset s.bus.bids st false, pair := .grant st (s.now + 20), lastTurn := .grant
        grantPtr := st + 1, sent := grantFrame st } }) ∧
    (∀ st r rest, (s.bus.lastTurn ≠ .request ∨ ∀ x, vget s.bus.bids x = false) →
      (cyclic s.bus.requestPtr).find? (fun x => !(vget s.bus.queues x).isEmpty) = some st →
      vget s.bus.queues st = r :: rest →
      arbitrate s = { s with bus := { s.bus with
        queues := vset s.bus.queues st rest, pair := .request st r false (s.now + 20)
        lastTurn := .request, requestPtr := st + 1, sent := requestFrame st r } }) ∧
    ((∀ x, vget s.bus.queues x = [] ∧ vget s.bus.bids x = false) → arbitrate s = s)

/-- A scan's end keeps each stand's reading, and in continuous mode the next scan starts (R133, R134); the bid
set is the stands whose readings show PRESENT and BID, but for one that the arbiter then grants (R136). It
makes an OFFLINE stand ONLINE whose slot shows PRESENT and not UNSAFE, with no misses, STATUS asked for, the
stop-hold timer of 3,000 ms started when the slot shows STOP_HELD, and the flag raised; it leaves one not so
shown OFFLINE (R155). It makes an ONLINE stand FAULT whose slot shows UNSAFE; without UNSAFE the third reading
in a row without PRESENT makes it FAULT with LOST held, and an earlier one adds to the miss count (R156,
R162). A stand made FAULT has its timer stopped, its verification run ended and its flag raised, and its open
order closes FAILED(STAND_FAULT) or, past its paste boundary, marks fault after paste (R163, R129): the
order's part is stated when no other stand with an open order is made FAULT by the same scan. A reading with
PRESENT and STOP_HELD starts the timer of an ONLINE stand or lets it run on; one without either stops it
(R164). That the arbiter chooses at the end of the command, a STATUS perhaps, is the model's (assumption log
9). -/
def Obligations.ScanEnds : Prop :=
  ∀ (slots : Vector Byte 8) (s : State), s.bus.scan ≠ none →
    let alone : StandId → Prop := fun st => ∀ x, x ≠ st → (vget s.stands x).condition = .online →
      openRow s x ≠ none → (vget slots x).getLsbD 0 = true ∧ (vget slots x).getLsbD 1 = false
    let acts : StandId → State → Prop := fun st t =>
      OrderFaulted st .standFault s t ∧ NewReelReturned st s t
    ∃ t, exec (.scanEnd slots) s = .next t ∧
    (∀ st, vget t.bus.slots st = (vget slots st).setWidth 5) ∧ t.bus.lastEnd = some s.now ∧
    t.bus.scan = (if s.bus.quiet then none else some 0) ∧
    (∀ st, (vget t.bus.bids st = true →
        (vget slots st).getLsbD 0 = true ∧ (vget slots st).getLsbD 3 = true) ∧
      ((vget slots st).getLsbD 0 = true → (vget slots st).getLsbD 3 = true →
        vget t.bus.bids st = true ∨ granted t st = true)) ∧
    (∀ st, (vget s.stands st).condition = .offline →
      ((vget t.stands st).condition = .online ↔
        (vget slots st).getLsbD 0 = true ∧ (vget slots st).getLsbD 1 = false) ∧
      ((vget t.stands st).condition = .online ∨ (vget t.stands st).condition = .offline) ∧
      ((vget t.stands st).condition = .online → (vget t.stands st).misses = 0 ∧
        (vget t.stands st).stopHold =
          (if (vget slots st).getLsbD 2 = true then some (s.now + 3000) else none) ∧
        Asked st ⟨.status, none, none, none⟩ t ∧ (standParam s st 13 = 1 → flagSet t st.val = true))) ∧
    (∀ st, (vget s.stands st).condition = .online →
      ((vget slots st).getLsbD 1 = true →
        OutOfService st .fault s t ∧ (vget t.stands st).errors.standUnsafe = true ∧ (alone st → acts st t)) ∧
      ((vget slots st).getLsbD 1 = false → (vget slots st).getLsbD 0 = true →
        (vget t.stands st).condition = .online ∧ (vget t.stands st).misses = 0 ∧
        (vget t.stands st).stopHold = (if (vget slots st).getLsbD 2 = true
          then some ((vget s.stands st).stopHold.getD (s.now + 3000)) else none)) ∧
      ((vget slots st).getLsbD 1 = false → (vget slots st).getLsbD 0 = false →
        (vget s.stands st).errors.lost = false →
        ((vget s.stands st).misses < 2 → (vget t.stands st).condition = .online ∧
          (vget t.stands st).misses = (vget s.stands st).misses + 1 ∧
          (vget t.stands st).stopHold = none) ∧
        (2 ≤ (vget s.stands st).misses → OutOfService st .fault s t ∧
          (vget t.stands st).misses = 0 ∧ (vget t.stands st).errors.lost = true ∧
          (alone st → acts st t)))) ∧
    OnlyIn [.reels, .verifies, .rows, .schedules, .sequencers, .bus, .stands, .port] s t

/-- The end of the stop-hold timer makes an ONLINE stand LOCKED_OUT with its timer stopped, its hard errors as
they were and its flag raised, and ends its verification run (R164, R165). Its open order before the paste
boundary closes FAILED(LOCAL_STOP), from a committed state with the sequencer IDLE, COAST asked for unless the
stand is LOST, and the COMMITTED new reel PREPARED; the READY new reel of a waiting order stays READY. An
order CLOSING, or PASTING with its PASTE fired, goes on with fault after paste yes (R129, R163). It touches no
tracker, arm context or output. That the timer's end brings the clock up to it is the model's (assumption log
3), and that the arbiter chooses at the end of the command (9). -/
def Obligations.StopHoldLocksOut : Prop :=
  ∀ (st : StandId) (s : State) (e : Nat), (vget s.stands st).condition = .online →
    (vget s.stands st).stopHold = some e → ∃ t, exec (.stopHoldTimerEnd st) s = .next t ∧
      vget t.stands st = { vget s.stands st with condition := .lockedOut, stopHold := none } ∧
      OnlyAt st s.stands t.stands ∧ vget t.verifies st = none ∧ t.now = max s.now e ∧
      (standParam s st 13 = 1 → flagSet t st.val = true) ∧
      OrderFaulted st .localStop s t ∧ NewReelReturned st s t ∧
      OnlyIn [.now, .reels, .verifies, .rows, .schedules, .sequencers, .bus, .stands, .port] s t

/-- The ACCEPT of the request in exchange ends the exchange and is handed on by the request's kind (R142 to
R145, R25, R109): a GAUGE or STATUS opens an outstanding read of 2,000 ms, an INDEX opens the index record of
25,000 ms, a VERIFY starts the turning of the run that waits for it with 15,000 ms, and an ACCEL is ACCEPTED
at the sequencer that awaits it. No record, row, tracker, stand context or flag changes. The ACCEPT of an
abandoned request is handed to nobody (R139). That this holds for STATUS and INDEX too (assumption log 15),
that a read keeps the reel its GAUGE was queued for (14) and replaces one outstanding (39), that the read so
opened stands last in the list (47), that the times run from the command (10), and that the arbiter chooses
when it is done (9) is the model's. -/
def Obligations.AcceptedRequests : Prop :=
  ∀ (st : StandId) (r : Request) (lim : Nat) (s : State),
    (s.bus.pair = .request st r true lim →
      exec (.accept st r.kind r.arm) s = .next (arbitrate { s with bus := { s.bus with pair := .free } })) ∧
    (s.bus.pair = .request st r false lim →
      ∃ t, exec (.accept st r.kind r.arm) s = .next t ∧ ExchangeEnded t ∧
      (∀ arm, r.kind = .gauge → r.arm = some arm →
        vget t.bus.reads st = ((vget s.bus.reads st).filter fun x => x.read != .gauge arm) ++
          [⟨.gauge arm, r.reel, s.now + 2000⟩]) ∧
      (r.kind = .status → vget t.bus.reads st =
        ((vget s.bus.reads st).filter fun x => x.read != .status) ++ [⟨.status, none, s.now + 2000⟩]) ∧
      (r.kind = .index → vget t.bus.indexes st = some (s.now + 25000)) ∧
      (∀ v, r.kind = .verify → vget s.verifies st = some v → v.turning = none → r.arm = some v.arm →
        vget t.verifies st = some { v with turning := some ⟨false, false, 0, [], s.now + 15000⟩ }) ∧
      (∀ q, r.kind = .accel → vget s.sequencers st = some q → q.phase = .accelerating →
        q.accepted = false → r.arm = some q.newArm →
        vget t.sequencers st = some { q with accepted := true }) ∧
      (r.kind ≠ .verify → t.verifies = s.verifies) ∧ (r.kind ≠ .accel → t.sequencers = s.sequencers) ∧
      (r.kind ≠ .gauge → r.kind ≠ .status → t.bus.reads = s.bus.reads) ∧
      (r.kind ≠ .index → t.bus.indexes = s.bus.indexes) ∧
      OnlyAt st s.verifies t.verifies ∧ OnlyAt st s.sequencers t.sequencers ∧
      OnlyAt st s.bus.reads t.bus.reads ∧ OnlyAt st s.bus.indexes t.bus.indexes ∧
      OnlyIn [.verifies, .sequencers, .bus] s t)

/-- The REFUSE of the request in exchange is written as the stand's last outcome with the stand's reason
(R146, R167); a VERIFY's ends the run that waits for it (R25) and an ACCEL's closes the order
FAILED(ACCEL_REFUSED) (R109). The exchange ends (R142). The REFUSE of a request that was abandoned writes
nothing (R139). The arbiter chooses when the command is done: the model's (assumption log 9). -/
def Obligations.RefusedRequests : Prop :=
  ∀ (st : StandId) (r : Request) (lim : Nat) (why : StandReason) (s : State),
    (s.bus.pair = .request st r true lim → exec (.refuse st r.kind r.arm why) s =
      .next (arbitrate { s with bus := { s.bus with pair := .free } })) ∧
    (s.bus.pair = .request st r false lim → r.kind.hasArm = r.arm.isSome →
      ∃ t, exec (.refuse st r.kind r.arm why) s = .next t ∧ ExchangeEnded t ∧
        some (vget t.stands st).outcome = (match r.kind, r.arm with
          | .index, _ => some (.indexRefused why)
          | .retract, _ => some (.retractRefused why)
          | .status, _ => some (.statusRefused why)
          | .verify, some x => some (.verifyRefused x why)
          | .accel, some x => some (.accelRefused x why)
          | .coast, some x => some (.coastRefused x why)
          | .brake, some x => some (.brakeRefused x why)
          | .gauge, some x => some (.gaugeNoReply x (some why))
          | _, none => none) ∧
        (vget t.stands st).condition = (vget s.stands st).condition ∧ OnlyAt st s.stands t.stands ∧
        (∀ v, r.kind = .verify → vget s.verifies st = some v → v.turning = none → r.arm = some v.arm →
          vget t.verifies st = none) ∧
        (∀ q row, r.kind = .accel → vget s.sequencers st = some q → q.phase = .accelerating →
          q.accepted = false → r.arm = some q.newArm → vget s.rows q.row = some row →
          row.state.isOpen = true → vget t.rows q.row = some { row with
            state := .failed, past := false, place := none, results := none
            reason := some .accelRefused }) ∧
        (r.kind ≠ .accel → r.kind ≠ .retract → OnlyIn [.verifies, .bus, .stands, .port] s t) ∧
        OnlyIn [.reels, .verifies, .rows, .schedules, .sequencers, .bus, .stands, .port] s t)

/-- A reply time that ends takes an ONLINE stand to FAULT with NO_REPLY held (R142, R162); a granted stand
that sends nothing has its lapse count raised, and at the third lapse in a row the count returns to 0 and an
ONLINE stand takes NO_REPLY (R147). The stand's entry to FAULT ends its verification run and acts on its open
order: FAILED(STAND_FAULT) before the paste boundary, fault after paste past it (R129, R163). The exchange
ends in each case. That the end of the time brings the clock up to it, and that the arbiter then chooses, is
the model's (assumption log 3, 9). -/
def Obligations.SilentStands : Prop :=
  (∀ (st : StandId) (r : Request) (ab : Bool) (lim : Nat) (s : State),
    s.bus.pair = .request st r ab lim → (vget s.stands st).condition = .online →
    ∃ t, exec .replyTimeEnd s = .next t ∧ ExchangeEnded t ∧ OutOfService st .fault s t ∧
      (vget t.stands st).errors = { (vget s.stands st).errors with noReply := true } ∧
      OrderFaulted st .standFault s t ∧ NewReelReturned st s t ∧
      OnlyAt st s.stands t.stands ∧ t.now = max s.now lim ∧
      OnlyIn [.now, .reels, .verifies, .rows, .schedules, .sequencers, .bus, .stands, .port] s t) ∧
    (∀ (st : StandId) (lim : Nat) (s : State), s.bus.pair = .grant st lim → vget s.bus.lapses st < 2 →
      ∃ t, exec .grantLapse s = .next t ∧ ExchangeEnded t ∧ vget t.bus.lapses st = vget s.bus.lapses st + 1 ∧
        OnlyAt st s.bus.lapses t.bus.lapses ∧ OnlyIn [.now, .bus] s t) ∧
    ∀ (st : StandId) (lim : Nat) (s : State), s.bus.pair = .grant st lim → 2 ≤ vget s.bus.lapses st →
      (vget s.stands st).condition = .online →
      ∃ t, exec .grantLapse s = .next t ∧ ExchangeEnded t ∧ vget t.bus.lapses st = 0 ∧
        OutOfService st .fault s t ∧
        (vget t.stands st).errors = { (vget s.stands st).errors with noReply := true } ∧
        OrderFaulted st .standFault s t ∧ NewReelReturned st s t

/-- A read that reaches its limit ends with no reply recorded: GAUGE_NO_REPLY for a gauge, STATUS NO RESPONSE
for a status (R144, R22, R158). An index record that reaches its limit ends with INDEX_TIMEOUT recorded, and
an ONLINE stand takes it as a hard error (R145, R161): its entry to FAULT ends its verification run and acts
on its open order, FAILED(STAND_FAULT) before the paste boundary, fault after paste past it (R129, R163). That
a limit brings the clock up to it is the model's (assumption log 3), and that the arbiter chooses at the end
of the command (9). -/
def Obligations.ReadAndIndexLimits : Prop :=
  (∀ (st : StandId) (s : State) (k : ReadKind) (o : OutstandingRead),
    (vget s.bus.reads st).find? (fun x => x.read == k) = some o →
    ∃ t, exec (.readLimit st k) s = .next t ∧
      vget t.bus.reads st = (vget s.bus.reads st).filter (fun x => x.read != k) ∧
      vget t.stands st = { vget s.stands st with outcome := match k with
        | .gauge arm => .gaugeNoReply arm none
        | .status => .statusNoResponse } ∧
      OnlyAt st s.stands t.stands ∧ t.port = raisedPort s st ∧ t.now = max s.now o.limit ∧
      OnlyIn [.now, .bus, .stands, .port] s t) ∧
    ∀ (st : StandId) (s : State) (e : Nat), vget s.bus.indexes st = some e →
      (vget s.stands st).condition = .online → ∃ t, exec (.indexTimeout st) s = .next t ∧
        vget t.bus.indexes st = none ∧ (vget t.stands st).outcome = .indexTimeout ∧
        (vget t.stands st).map = (vget s.stands st).map ∧ OutOfService st .fault s t ∧
        (vget t.stands st).errors = { (vget s.stands st).errors with indexTimeout := true } ∧
        OrderFaulted st .standFault s t ∧ NewReelReturned st s t ∧
        OnlyIn [.now, .reels, .verifies, .rows, .schedules, .sequencers, .bus, .stands, .port] s t

/-! ## Verification -/

/-- VERIFY DONE on a grant for the arm of a TURNING run without a repeat mark writes the judgement to the
record, which PASSED makes READY when it is PREPARED and holds an outside circumference; the run ends and the
stand's flag is raised (R26, R27): fewer than two intervals are SHORT_TURN, a 0 among the last two tape counts
NO_TAPE, a 2 or more DOUBLE_TAPE, else PASSED. The run's deadline writes TIMEOUT in the same way (R28). That
the deadline brings the clock up to it is the model's (assumption log 3). -/
def Obligations.VerificationEnds : Prop :=
  ∀ (st : StandId) (s : State) (v : VerifyRun) (x : Turning) (i : SlotId)
    (r : ReelRecord),
    vget s.verifies st = some v → v.turning = some x → x.repeatMark = false →
    findReel s v.reel = some i → vget s.reels i = some r →
    (granted s st = true → ∃ t, exec (.verifyDone st v.arm) s = .next t ∧
      vget t.reels i = some (if judgeRun x = .passed ∧ r.state = .prepared ∧ r.outside.isSome = true
        then { r with verify := .passed, state := .ready } else { r with verify := judgeRun x }) ∧
      (judgeRun x = if x.count < 2 then .shortTurn else if 0 ∈ x.lastTwo then .noTape
        else if ∃ n ∈ x.lastTwo, 2 ≤ n then .doubleTape else .passed) ∧ OnlyAt i s.reels t.reels ∧
      vget t.verifies st = none ∧ OnlyAt st s.verifies t.verifies ∧ t.port = raisedPort s st ∧
      OnlyIn [.reels, .verifies, .bus, .port] s t) ∧
    ∃ t, exec (.verifyTimeout st) s = .next t ∧
      vget t.reels i = some { r with verify := .timeout } ∧ OnlyAt i s.reels t.reels ∧ vget t.verifies st = none ∧
      OnlyAt st s.verifies t.verifies ∧ t.port = raisedPort s st ∧ t.now = max s.now x.deadline ∧
      OnlyIn [.now, .reels, .verifies, .bus, .port] s t

/-! ## Messages on a grant -/

/-- A gauge RESPONSE for an outstanding read is taken for the record that has the reel number whose MOUNT
asked for it, while it is bound to the arm (R21): a diameter of 150 to 1,400 mm is stored as floor(d × 31416 /
1000), which makes a PREPARED record with verify result PASSED READY, and any other diameter is left with
GAUGE_RANGE recorded. That a read remembers its MOUNT is the model's (assumption log 14), and so is that it
does so by the reel number, so that a record freed, entered again under its number and mounted on the arm
takes the earlier read's RESPONSE (44). -/
def Obligations.GaugeResponse : Prop :=
  ∀ (st : StandId) (arm : Arm) (d : BitVec 16) (s : State) (o : OutstandingRead) (n : Nat)
    (i : SlotId) (r : ReelRecord),
    granted s st = true → (vget s.bus.reads st).find? (fun x => x.read == .gauge arm) = some o →
    o.reel = some n → findReel s n = some i →
    vget s.reels i = some r → r.stand = st → r.arm = some arm →
    ∃ t, exec (.response st (.gauge arm d)) s = .next t ∧
      vget t.bus.reads st = (vget s.bus.reads st).filter (fun x => x.read != .gauge arm) ∧
      (150 ≤ d.toNat → d.toNat ≤ 1400 →
        vget t.reels i = some (if r.state = .prepared ∧ r.verify = .passed
          then { r with outside := some (d.toNat * 31416 / 1000), state := .ready }
          else { r with outside := some (d.toNat * 31416 / 1000) }) ∧
        (vget t.stands st).outcome = .gaugeStored arm ∧ OnlyAt i s.reels t.reels) ∧
      (d.toNat < 150 ∨ 1400 < d.toNat →
        t.reels = s.reels ∧ (vget t.stands st).outcome = .gaugeRange arm) ∧
      t.port = raisedPort s st ∧ OnlyAt st s.stands t.stands ∧
      OnlyIn [.reels, .bus, .stands, .port] s t

/-- INDEX DONE for an open index record adopts a well-made map, the one-step rotation of the map held or any
when none is held, with the outcome INDEX DONE and the tape counts of the stand cleared (R161, R11), and
starts the verification of a PREPARED record with verify result NONE that it brings to SPLICE on an ONLINE
stand, ending a run of another arm (R24, R28); any other map takes an ONLINE stand to FAULT with
INDEX_MISMATCH, and one that is not well made is not adopted. A STATUS response for an outstanding read sets
the loaded flags as it shows them and adopts a well-made map without comparing it, with the outcome STATUS
DONE, else STATUS BAD MAP. A STATUS map that shows the new arm of an ONLINE stand's open order away from
SPLICE before its paste boundary gives INDEX_MISMATCH (R157): stated when no arm that it shows not loaded
carries a record whose removal touches an order or faults the stand itself (R38). The entry to FAULT ends the
verification run and acts on the open order (R129, R163). The order of a STATUS response's effects is the
model's (assumption log 17), and so is that the arbiter chooses at the end of the command (9). -/
def Obligations.MapReports : Prop :=
  ∀ (st : StandId) (s : State), granted s st = true →
    (∀ (a b c : ArmStatus) (o : OutstandingRead),
      (vget s.bus.reads st).find? (fun x => x.read == .status) = some o →
      ∃ t, exec (.response st (.status a b c)) s = .next t ∧
        (∀ x ∈ vget t.bus.reads st, x ∈ vget s.bus.reads st ∧ x.read ≠ .status) ∧
        (vget t.stands st).loaded = ⟨a.loaded, b.loaded, c.loaded⟩ ∧
        (if a.position ≠ b.position ∧ b.position ≠ c.position ∧ a.position ≠ c.position
          then (vget t.stands st).map = some ⟨a.position, b.position, c.position⟩ ∧
            (vget t.stands st).outcome = .statusDone ∧
            ∀ arm, (armContext t st arm).tapeCount = 0
          else (vget t.stands st).map = (vget s.stands st).map ∧
            (vget t.stands st).outcome = .statusBadMap ∧ t.arms = s.arms) ∧
        OnlyAt st s.stands t.stands ∧
        (let shown : PerArm ArmStatus := ⟨a, b, c⟩
         a.position ≠ b.position → b.position ≠ c.position → a.position ≠ c.position →
         (vget s.stands st).condition = .online →
         (∀ arm r, boundReel s st arm = some r → (armGet shown arm).loaded = true ∨ r.state = .expired ∨
           r.tag = none ∧ r.state ≠ .committed ∧ r.state ≠ .running) →
         ∀ k row, openRow s st = some k → vget s.rows k = some row →
           (armGet shown row.newArm).position ≠ .splice → ¬ pastBoundary s st row →
           OutOfService st .fault s t ∧ (vget t.stands st).errors.indexMismatch = true ∧
           OrderFaulted st .standFault s t ∧ NewReelReturned st s t) ∧
        OnlyIn [.arms, .reels, .verifies, .trackers, .rows, .schedules, .sequencers, .bus, .stands, .port]
          s t) ∧
    ∀ (x y z : SpiderPos) (e : Nat), vget s.bus.indexes st = some e → ∃ t, exec (.indexDone st x y z) s = .next t ∧
      vget t.bus.indexes st = none ∧
      (x ≠ y → y ≠ z → x ≠ z → (vget t.stands st).map = some ⟨x, y, z⟩ ∧
        (∀ arm, (armContext t st arm).tapeCount = 0 ∧
          (armContext t st arm).lastMark = (armContext s st arm).lastMark)) ∧
      (x ≠ y → y ≠ z → x ≠ z → (∀ m, (vget s.stands st).map = some m → rotated m = ⟨x, y, z⟩) →
        (vget t.stands st).outcome = .indexDone ∧
        (vget t.stands st).condition = (vget s.stands st).condition ∧
        (vget t.stands st).errors = (vget s.stands st).errors ∧
        ∀ arm r, (vget s.stands st).condition = .online → armGet (⟨x, y, z⟩ : PerArm SpiderPos) arm = .splice →
          boundReel s st arm = some r → r.state = .prepared → r.verify = .untested →
          (∀ v, vget s.verifies st = some v → v.arm ≠ arm) →
          vget t.verifies st = some ⟨r.reel, arm, none⟩ ∧ Asked st ⟨.verify, some arm, none, none⟩ t) ∧
      (x = y ∨ y = z ∨ x = z → (vget t.stands st).map = (vget s.stands st).map) ∧
      (((x = y ∨ y = z ∨ x = z) ∨ ∃ m, (vget s.stands st).map = some m ∧ rotated m ≠ ⟨x, y, z⟩) →
        (vget t.stands st).outcome = .indexMismatch ∧
        ((vget s.stands st).condition = .online → OutOfService st .fault s t ∧
          (vget t.stands st).errors.indexMismatch = true ∧
          OrderFaulted st .standFault s t ∧ NewReelReturned st s t)) ∧
      OnlyIn [.arms, .reels, .verifies, .rows, .schedules, .sequencers, .bus, .stands, .port] s t

/-- ARM LOADED sets the arm's loaded flag, changes no record and raises the stand's flag (R37, R159). ARM
EMPTIED clears the flag, raises the stand's flag and abandons the arm's gauge read, whether or not a record is
bound to the arm (R22, R139): with no record it does nothing more; an EXPIRED record is freed; a MOUNTED,
PREPARED or READY record without an order tag becomes STAGED, unbound, with verify result NONE; the READY new
reel of a waiting order becomes STAGED without tag and the order closes FAILED(NEW_REEL_REMOVED); a COMMITTED
or RUNNING record is freed and the stand takes ARM_FAULT (R38, R159, R166), which acts on its open order:
FAILED(STAND_FAULT) before the paste boundary, fault after paste past it, and the new reel returned when it is
the RUNNING record that is freed (R129, R163). Each ends the grant (R147); that the arbiter then chooses, at
the end of the command, is the model's (assumption log 9). -/
def Obligations.ArmReports : Prop :=
  ∀ (st : StandId) (arm : Arm) (s : State), granted s st = true →
    (∃ t, exec (.armLoaded st arm) s = .next t ∧
      vget t.stands st = { vget s.stands st with loaded := armSet (vget s.stands st).loaded arm true } ∧
      OnlyAt st s.stands t.stands ∧ t.port = raisedPort s st ∧ GrantEnded st s t ∧
      OnlyIn [.bus, .stands, .port] s t) ∧
    ∃ t, exec (.armEmptied st arm) s = .next t ∧ GrantEnded st s t ∧
      vget t.bus.reads st = (vget s.bus.reads st).filter (fun x => x.read != .gauge arm) ∧
      OnlyAt st s.bus.reads t.bus.reads ∧ OnlyAt st s.stands t.stands ∧
      (vget t.stands st).loaded = armSet (vget s.stands st).loaded arm false ∧
      (standParam s st 13 = 1 → flagSet t st.val = true) ∧
      (boundSlot s st arm = none →
        vget t.stands st = { vget s.stands st with loaded := armSet (vget s.stands st).loaded arm false } ∧
        t.port = raisedPort s st ∧ OnlyIn [.bus, .stands, .port] s t) ∧
      ∀ i r, boundSlot s st arm = some i → vget s.reels i = some r →
        (r.state = .expired → vget t.reels i = none ∧ OnlyAt i s.reels t.reels ∧
          (vget t.stands st).condition = (vget s.stands st).condition ∧ t.port = raisedPort s st ∧
          OnlyIn [.reels, .bus, .stands, .port] s t) ∧
        ((r.state = .mounted ∨ r.state = .prepared ∨ r.state = .ready) → r.tag = none →
          vget t.reels i = some { r with state := .staged, arm := none, verify := .untested } ∧
          OnlyAt i s.reels t.reels ∧ (vget t.stands st).condition = (vget s.stands st).condition ∧
          t.port = raisedPort s st ∧ OnlyIn [.reels, .verifies, .bus, .stands, .port] s t) ∧
        (∀ g k row, r.state = .ready → r.tag = some g → rowOfTag s g = some k →
          vget s.rows k = some row → row.state.waiting = true →
          vget t.reels i = some { r with state := .staged, arm := none, verify := .untested, tag := none } ∧
          vget t.rows k = some { row with
            state := .failed, past := false, place := none, results := none
            reason := some .newReelRemoved } ∧
          (standParam s row.stand 13 = 1 → flagSet t (8 + k.val) = true) ∧
          (vget t.stands st).condition = (vget s.stands st).condition) ∧
        ((r.state = .committed ∨ r.state = .running) → (vget s.stands st).condition = .online →
          vget t.reels i = none ∧ OutOfService st .fault s t ∧
          (vget t.stands st).errors.armFault = true ∧ OrderFaulted st .standFault s t ∧
          (r.state = .running → vget t.trackers st = none ∧ NewReelReturned st s t))

/-- QUERY ARM on a grant is answered with an ARM REPORT of the record bound to the arm, its number, grade,
state and remaining length in whole metres, 0xFFFFFFFF for none, and with no payload when no record is bound
(R42, R148, R153); a message that R147 routes nowhere is ignored. Each ends the grant: the stand's lapse count
is 0 and the pair FREE, and neither changes anything but the bus. The arbiter then chooses, and the report
frame is kept as sent: both are the model's (assumption log 9, 30). -/
def Obligations.QueriesAndUnrouted : Prop :=
  ∀ (st : StandId) (s : State), granted s st = true →
    let answered : Option Arm → List Byte → State := fun arm items => arbitrate { s with
      bus := { s.bus with
        lapses := vset s.bus.lapses st 0, pair := .free
        report := busFrame false st 0x40 (armByte arm) items } }
    (∀ arm r, boundReel s st arm = some r → exec (.queryArm st (some arm)) s =
      .next (answered (some arm) (beBytes 4 r.reel ++ beBytes 2 r.grade ++
        beBytes 1 (reelStateCode r.state) ++
        beBytes 4 (((reportedRemaining s r).map (· / 10000)).getD 0xFFFFFFFF)))) ∧
    (∀ arm, arm.bind (boundReel s st) = none → exec (.queryArm st arm) s = .next (answered arm [])) ∧
    exec (.unroutedStandMessage st) s = .next (arbitrate { s with
      bus := { s.bus with lapses := vset s.bus.lapses st 0, pair := .free } })

/-! ## Frames on the console link -/

/-- A discarded frame and an answer frame change nothing; a command code not in the table is answered
UNKNOWN_CODE; the end of an answer's sending frees the port for the next command (R178, R179). -/
def Obligations.UntakenFrames : Prop :=
  ∀ s : State, (∀ bytes, exec (.consoleFrameDiscarded bytes) s = .next s) ∧
    (∀ ad code p, exec (.answerFrameSeen ad code p) s = .next s) ∧
    (∀ ad code p, Addressed s ad → exec (.unknownCode ad code p) s =
      .next { s with port := answering s.port code .unknownCode [] }) ∧
    exec .answerSent s = .next { s with port := { s.port with answer := none } }

/-- Which command frames are not carried out: none before the RESET pin is released (R190), none addressed to
the unit while an answer is pending (R178), none for another address, and no broadcast but of the four
honoured codes (R180). A frame so ignored ends the parameter run unless it is DATA (R176). The meaning of
frames while RESET is held (assumption log 12), and that a broadcast and another unit's frame are taken also
while an answer is pending (22), is the model's. -/
def Obligations.FramesNotCarriedOut : Prop :=
  ∀ (c : Instr) (ad code : Byte) (p : List Byte) (s : State), c.wf = true →
    consoleParts c = some (ad, code, p) → (∀ a k q, c ≠ .answerFrameSeen a k q) → NothingWaits s →
    (s.resetHeld = true → exec c s = .next s) ∧
    (s.port.address ≠ 0 → ad = s.port.address.setWidth 8 → s.port.answer.isSome = true →
      exec c s = .next s) ∧
    (s.resetHeld = false → ad ≠ 0 → ad ≠ s.port.address.setWidth 8 →
      exec c s = .next (if code = 0x33 then s else { s with port := { s.port with run := none } })) ∧
    (s.resetHeld = false → ad = 0 → code ∉ [0x30, 0x32, 0x33, 0x50] →
      exec c s = .next { s with port := { s.port with run := none } })

/-- An addressed command frame whose payload has not the length of the command table is answered BAD_LENGTH
(R179); a DATA frame whose length is 0, above 48 or no multiple of 4 too, and then the run stays (R177). -/
def Obligations.WrongLengths : Prop :=
  ∀ (ad : Byte) (s : State), Addressed s ad → NothingWaits s →
    (∀ (c : Instr) (code : Byte) (p : List Byte) (n : Nat), consoleParts c = some (ad, code, p) →
      c.wf = true → (code, n) ∈ ([(0x01, 12), (0x02, 5), (0x03, 4), (0x04, 12), (0x05, 4), (0x06, 4),
        (0x07, 2), (0x08, 1), (0x09, 4), (0x0A, 4), (0x10, 6), (0x11, 1), (0x12, 1), (0x13, 1), (0x14, 3),
        (0x20, 1), (0x21, 1), (0x22, 2), (0x23, 2), (0x30, 7), (0x31, 3), (0x32, 3), (0x40, 0), (0x41, 4),
        (0x50, 1), (0x51, 0)] : List (Byte × Nat)) → p.length ≠ n →
      exec c s = .next { s with port := answering s.port code .badLength [] }) ∧
    ∀ p : List Byte, (p.length = 0 ∨ 48 < p.length ∨ p.length % 4 ≠ 0) →
      exec (.data ad p) s = .next { s with
        port := { s.port with answer := some ⟨0xB3, [statusCode .badLength]⟩ } }

/-! ## Reel records -/

/-- ENTER REEL with its items in range, a reel number that no record has and slot i the lowest FREE slot
creates the STAGED record there (R16, R17, R19); a number in use is answered REEL_EXISTS, a full table
REEL_TABLE_FULL, and a reel number 0, a stand outside 1 to 8 or an item out of its range BAD_VALUE. -/
def Obligations.EnterReel : Prop :=
  ∀ (ad : Byte) (p : List Byte) (s : State), Addressed s ad → p.length = 12 →
    let n := item p 0 4
    let core := item p 7 2
    let outside := item p 9 2
    let caliper := item p 11 1
    let answers : Status → Prop := fun x =>
      exec (.enterReel ad p) s = .next { s with port := answering s.port 0x01 x [] }
    let good : Prop :=
      (core = 0 ∨ 3000 ≤ core * 31416 / 1000 ∧ core * 31416 / 1000 ≤ 6000) ∧
        (outside = 0 ∨ 150 ≤ outside ∧ outside ≤ 1400) ∧ (caliper = 0 ∨ 40 ≤ caliper ∧ caliper ≤ 200)
    (n = 0 ∨ item p 4 1 = 0 ∨ 8 < item p 4 1 ∨ ¬ good → answers .badValue) ∧
    ∀ st : StandId, item p 4 1 = st.val + 1 → n ≠ 0 → good →
      (∀ i r, vget s.reels i = some r → r.reel = n → answers .reelExists) ∧
      ((∀ i r, vget s.reels i = some r → r.reel ≠ n) →
        ((∀ i, vget s.reels i ≠ none) → answers .reelTableFull) ∧
        ∀ i, vget s.reels i = none → (∀ j, j < i → vget s.reels j ≠ none) →
          exec (.enterReel ad p) s = .next { s with
            reels := vset s.reels i (some {
              reel := n, stand := st, grade := item p 5 2, state := .staged, arm := none
              core := if core = 0 then standParam s st 11 else core * 31416 / 1000
              outside := if outside = 0 then none else some (outside * 31416 / 1000)
              caliper := if caliper = 0 then none else some caliper
              current := none, remaining := none, learned := none, verify := .untested
              runout := false, clamped := false, trackingFault := false, tag := none })
            port := answering s.port 0x01 .ok [] })

/-- MOUNT REEL binds a STAGED record of an ONLINE stand to a loaded-unbound arm and queues GAUGE (R20).
PREPARED makes a MOUNTED or PREPARED record of an ONLINE stand PREPARED with verify result NONE; at SPLICE
with the stand's verification IDLE it starts a run and queues VERIFY, and a TURNING run of the record is
marked to repeat (R23, R24). That the GAUGE carries the reel's number (assumption log 14), and that the
arbiter then chooses (9), is the model's. -/
def Obligations.MountAndPrepare : Prop :=
  ∀ (ad : Byte) (p : List Byte) (s : State) (i : SlotId) (r : ReelRecord), Addressed s ad →
    findReel s (item p 0 4) = some i → vget s.reels i = some r →
    (p.length = 5 → ∀ arm, item p 4 1 = armCode arm → r.state = .staged →
      (vget s.stands r.stand).condition = .online → armGet (vget s.stands r.stand).loaded arm = true →
      boundSlot s r.stand arm = none →
      exec (.mountReel ad p) s = .next (arbitrate { s with
        reels := vset s.reels i (some { r with state := .mounted, arm := some arm })
        bus := queuedBus s.bus r.stand ⟨.gauge, some arm, none, some r.reel⟩
        port := answering s.port 0x02 .ok [] })) ∧
    (p.length = 4 → r.state = .mounted ∨ r.state = .prepared →
      (vget s.stands r.stand).condition = .online →
      let reels := vset s.reels i (some { r with state := .prepared, verify := .untested })
      (∀ arm, r.arm = some arm → armPosition s r.stand arm = some .splice →
        vget s.verifies r.stand = none →
        exec (.prepared ad p) s = .next (arbitrate { s with
          reels := reels
          verifies := vset s.verifies r.stand (some ⟨r.reel, arm, none⟩)
          bus := queuedBus s.bus r.stand ⟨.verify, some arm, none, none⟩
          port := answering s.port 0x03 .ok [] })) ∧
      (∀ v, vget s.verifies r.stand = some v → v.reel = r.reel →
        exec (.prepared ad p) s = .next (arbitrate { s with
          reels := reels
          verifies := vset s.verifies r.stand (some { v with
            turning := v.turning.map fun x => { x with repeatMark := true } })
          port := answering s.port 0x03 .ok [] })) ∧
      (vget s.verifies r.stand = none → (∀ arm, r.arm = some arm →
          armPosition s r.stand arm ≠ some .splice) →
        exec (.prepared ad p) s = .next (arbitrate { s with
          reels := reels, port := answering s.port 0x03 .ok [] })))

/-- AMEND REEL writes each item given as a new value and keeps the others; COMMITTED and EXPIRED records, and
a new grade or core of a RUNNING one, are refused with WRONG_STATE (R35). RETIRE REEL frees the slot of a
STAGED or EXPIRED record that carries no order tag, and refuses every other with WRONG_STATE; a number without
a record is answered NO_SUCH_REEL (R36). -/
def Obligations.AmendAndRetire : Prop :=
  ∀ (ad : Byte) (p : List Byte) (s : State), Addressed s ad →
    (p.length = 4 → findReel s (item p 0 4) = none →
      exec (.retireReel ad p) s = .next { s with port := answering s.port 0x05 .noSuchReel [] }) ∧
    ∀ (i : SlotId) (r : ReelRecord), findReel s (item p 0 4) = some i → vget s.reels i = some r →
    (p.length = 4 →
      ((r.state = .staged ∨ r.state = .expired) → r.tag = none →
        exec (.retireReel ad p) s = .next { s with
          reels := vset s.reels i none, port := answering s.port 0x05 .ok [] }) ∧
      ((r.state ≠ .staged ∧ r.state ≠ .expired) ∨ r.tag ≠ none →
        exec (.retireReel ad p) s = .next { s with port := answering s.port 0x05 .wrongState [] })) ∧
    (p.length = 12 →
      let grade := item p 4 4
      let caliper := item p 8 2
      let core := item p 10 2
      (grade = 0xFFFFFFFF ∨ grade ≤ 65535) → (caliper = 0xFFFF ∨ 40 ≤ caliper ∧ caliper ≤ 200) →
      (core = 0xFFFF ∨ 3000 ≤ core * 31416 / 1000 ∧ core * 31416 / 1000 ≤ 6000) →
      (r.state = .committed ∨ r.state = .expired ∨
          r.state = .running ∧ (grade ≠ 0xFFFFFFFF ∨ core ≠ 0xFFFF) →
        exec (.amendReel ad p) s = .next { s with port := answering s.port 0x04 .wrongState [] }) ∧
      (r.state ≠ .committed → r.state ≠ .expired →
        (r.state = .running → grade = 0xFFFFFFFF ∧ core = 0xFFFF) →
        exec (.amendReel ad p) s = .next { s with
          reels := vset s.reels i (some { r with
            grade := if grade = 0xFFFFFFFF then r.grade else grade
            caliper := if caliper = 0xFFFF then r.caliper else some caliper
            core := if core = 0xFFFF then r.core else core * 31416 / 1000 })
          port := answering s.port 0x04 .ok [] }))

/-- THREAD REEL makes a MOUNTED, PREPARED or READY record whose arm is at RUN on an ONLINE stand without a
RUNNING record RUNNING, empties the arm context and starts the tracker in WARMING (R5, R29, R46). STOP REEL
makes a RUNNING record EXPIRED with its stub estimate and the tracker IDLE (R33, R48); as the expiring reel of
an order before its paste it closes the order CANCELLED(REEL_STOPPED), and of a PASTING order it is refused
(R84). The arbiter chooses when the command is done: the model's (assumption log 9). -/
def Obligations.ThreadAndStop : Prop :=
  ∀ (ad : Byte) (p : List Byte) (s : State) (i : SlotId) (r : ReelRecord), Addressed s ad →
    p.length = 4 → findReel s (item p 0 4) = some i → vget s.reels i = some r →
    (∀ arm, (r.state = .mounted ∨ r.state = .prepared ∨ r.state = .ready) →
      (vget s.stands r.stand).condition = .online → r.arm = some arm →
      armPosition s r.stand arm = some .run →
      (∀ j x, vget s.reels j = some x → x.stand = r.stand → x.state ≠ .running) →
      exec (.threadReel ad p) s = .next { s with
        reels := vset s.reels i (some { r with
          state := .running, current := none, remaining := none, learned := none
          runout := false, clamped := false, trackingFault := false })
        arms := vset s.arms r.stand (armSet (vget s.arms r.stand) arm ⟨none, none, 0, none⟩)
        trackers := vset s.trackers r.stand (some {
          state := .warming, reel := r.reel, arm := arm, window := [], cPrev := none, relaxed := true
          rejects := 0, candidate := none, mark := none, runoutHeld := false, delta := none
          clampReported := false })
        port := answering s.port 0x09 .ok [] }) ∧
    (r.state = .running →
      (r.tag = none → exec (.stopReel ad p) s = .next (arbitrate { s with
        reels := vset s.reels i (some { r with
          state := .expired, remaining := reportedRemaining s r, learned := none })
        trackers := vset s.trackers r.stand none
        port := answering s.port 0x0A .ok [] })) ∧
      ∀ g k row, r.tag = some g → rowOfTag s g = some k → vget s.rows k = some row →
        row.expiring = r.reel →
        (row.state = .pasting → NothingWaits s → exec (.stopReel ad p) s =
          .next { s with port := answering s.port 0x0A .wrongState [] }) ∧
        ((row.state = .armed ∨ row.state = .held ∨ row.state = .accelerating ∨ row.state = .matched) →
          ∃ t, exec (.stopReel ad p) s = .next t ∧
            vget t.rows k = some { row with
              state := .cancelled, past := false, place := none, results := none
              reason := some .reelStopped } ∧
            vget t.reels i = some { r with
              state := .expired, remaining := reportedRemaining s r, learned := none, tag := none } ∧
            vget t.trackers r.stand = none ∧ OnlyAt r.stand s.trackers t.trackers ∧
            t.port.answer = some ⟨0x8A, [statusCode .ok]⟩ ∧
            OnlyIn [.reels, .verifies, .trackers, .rows, .schedules, .sequencers, .bus, .port] s t))

/-! ## Lookups -/

/-- The lookups answer from the state as it stands and change nothing but the port (R39 to R41, R88, R105,
R149, R170, R172): READ REEL and READ ARM a record's items, LIST REELS the listing, READ ORDER, READ STAND and
READ LINE the items of the section named, in the layouts of R181 and R182 (section 2 of READ STAND with R15,
R66 and R132), READ STAND and READ LINE refusing a section above 2 or 8 with BAD_VALUE (R182); READ PARAMETER
the value held. The presence masks of the answers are the model's (assumption log 18), and so are the order in
which section 1 of READ STAND lists the outstanding reads (47), that section 0 shows an INDEX of an abandoned
exchange as in progress (15), and the place in READ ORDER at which R119's report of the paste stands (38). -/
def Obligations.LookupsAnswer : Prop :=
  ∀ (ad : Byte) (p : List Byte) (s : State), Addressed s ad →
    let after : Byte → Status → List Byte → Host.Outcome State Fault Refusal := fun code x items =>
      .next { s with port := answering s.port code x items }
    (p.length = 4 →
      (findReel s (item p 0 4) = none → exec (.readReel ad p) s = after 0x06 .noSuchReel []) ∧
      ∀ i r, findReel s (item p 0 4) = some i → vget s.reels i = some r →
        exec (.readReel ad p) s = after 0x06 .ok (recordItems s i r)) ∧
    (p.length = 2 → ∀ (st : StandId) (arm : Arm), item p 0 1 = st.val + 1 → item p 1 1 = armCode arm →
      (boundSlot s st arm = none → exec (.readArm ad p) s = after 0x07 .noSuchReel []) ∧
      ∀ i r, boundSlot s st arm = some i → vget s.reels i = some r →
        exec (.readArm ad p) s = after 0x07 .ok (recordItems s i r)) ∧
    (p.length = 1 → (item p 0 1 ≤ 64 → exec (.listReels ad p) s = after 0x08 .ok
        (let found := ((List.finRange 64).filter fun i =>
            decide (item p 0 1 ≤ i.val) && (vget s.reels i).isSome)
          let listed := found.take 12
          beBytes 1 listed.length ++
            beBytes 1 (if found.length < 12 then 64 else (listed.getLastD 0).val + 1) ++
            listed.flatMap fun i => beBytes 4 (((vget s.reels i).map (·.reel)).getD 0))) ∧
      (64 < item p 0 1 → exec (.listReels ad p) s = after 0x08 .badValue [])) ∧
    (p.length = 3 → item p 2 1 ≤ 1 →
      (∀ i row, (item p 0 1 = 0 ∧ item p 1 1 ≤ 63 ∧ rowOfTag s (item p 1 1) = some i ∨
          item p 0 1 = 1 ∧ item p 1 1 = i.val) → vget s.rows i = some row →
        exec (.readOrder ad p) s = after 0x14 .ok
          (if item p 2 1 = 0 then orderItems s i row else orderResultItems row)) ∧
      (∀ i : RowId, item p 0 1 = 1 → item p 1 1 = i.val → vget s.rows i = none →
        exec (.readOrder ad p) s = after 0x14 .noSuchOrder []) ∧
      (item p 0 1 = 0 → item p 1 1 ≤ 63 → rowOfTag s (item p 1 1) = none →
        exec (.readOrder ad p) s = after 0x14 .noSuchOrder [])) ∧
    (p.length = 2 → ∀ st : StandId, item p 0 1 = st.val + 1 →
      (item p 1 1 = 0 → exec (.readStand ad p) s = after 0x22 .ok (standItems s st)) ∧
      (item p 1 1 = 1 → exec (.readStand ad p) s = after 0x22 .ok (busItems s st)) ∧
      (item p 1 1 = 2 → exec (.readStand ad p) s = after 0x22 .ok (spliceItems s st)) ∧
      (2 < item p 1 1 → exec (.readStand ad p) s = after 0x22 .badValue [])) ∧
    (p.length = 2 → ∀ l : LineId, item p 0 1 = l.val + 1 →
      (item p 1 1 = 0 → exec (.readLine ad p) s = after 0x23 .ok (lineItems s l)) ∧
      (1 ≤ item p 1 1 → item p 1 1 ≤ 8 →
        exec (.readLine ad p) s = after 0x23 .ok (lineEntryItems s l (item p 1 1))) ∧
      (8 < item p 1 1 → exec (.readLine ad p) s = after 0x23 .badValue [])) ∧
    (p.length = 3 →
      (∀ (st : StandId) (j : Fin 14), item p 0 1 = 0 → item p 1 1 = st.val + 1 → item p 2 1 = j.val →
        exec (.readParameter ad p) s = after 0x31 .ok (beBytes 4 (standParam s st j))) ∧
      (∀ (l : LineId) (j : Fin 4), item p 0 1 = 1 → item p 1 1 = l.val + 1 → item p 2 1 = j.val →
        exec (.readParameter ad p) s = after 0x31 .ok (beBytes 4 (lineParam s l j))) ∧
      (1 < item p 0 1 → exec (.readParameter ad p) s = after 0x31 .badValue []))

/-! ## Splice orders -/

/-- ORDER SPLICE is refused by the first test of R70 that fails, and the table is then unchanged. One that
passes every test creates the order in the first EMPTY row from the allocation start, which moves past it, and
answers the row (R68, R71). On a line without other entries and with both commit points ahead, the row is
ARMED at its Ppref with commit distance A, both reels carry the tag, and the row's flag is raised (R30, R90,
R96 to R101). That an INDEX of an abandoned exchange counts as in progress, and so refuses with STAND_BUSY, is
the model's inference (assumption log 15); that the arbiter chooses when the command is done is the model's
(9). -/
def Obligations.OrderSplice : Prop :=
  ∀ (ad : Byte) (p : List Byte) (s : State), Addressed s ad → p.length = 6 →
    let tag := item p 0 1
    let n := item p 2 4
    let refused : Status → Prop := fun x =>
      exec (.orderSplice ad p) s = .next { s with port := answering s.port 0x10 x [] }
    let rowFound : Option RowId :=
      ((List.finRange 16).map fun k => s.allocStart + k).find? (fun k => (vget s.rows k).isNone)
    (NothingWaits s →
      (63 < tag ∨ item p 1 1 = 0 ∨ 8 < item p 1 1 ∨ n = 0 → refused .badValue) ∧
      ∀ st : StandId, tag ≤ 63 → item p 1 1 = st.val + 1 → n ≠ 0 →
        let runs : Prop := ∃ old x, runningReel s st = some old ∧ old.arm = some x ∧
          armPosition s st x = some .run ∧ (reportedRemaining s old).isSome = true
        let fits : ReelRecord → Prop := fun new => new.state = .ready ∧ new.stand = st ∧
          ∃ x, new.arm = some x ∧ armPosition s st x = some .splice
        if rowOfTag s tag ≠ none then refused .tagInUse
        else if (vget s.stands st).condition ≠ .online then refused .standNotOnline
        else if openRow s st ≠ none ∨ indexInProgress s st = true then refused .standBusy
        else (¬ runs → refused .wrongState) ∧ (runs →
          (reelOf s n = none → refused .noSuchReel) ∧ ∀ new, reelOf s n = some new →
            (¬ fits new → refused .armNotReady) ∧
            (fits new → rowFound = none → refused .orderTableFull))) ∧
    ∀ (st : StandId) (old new : ReelRecord) (arm oldArm : Arm) (i : RowId), tag ≤ 63 →
    item p 1 1 = st.val + 1 → n ≠ 0 → rowOfTag s tag = none → (vget s.stands st).condition = .online →
    openRow s st = none → indexInProgress s st = false → runningReel s st = some old →
    old.arm = some oldArm → armPosition s st oldArm = some .run → old.stand = st →
    (reportedRemaining s old).isSome = true → reelOf s n = some new → new.state = .ready →
    new.stand = st → new.arm = some arm → armPosition s st arm = some .splice → rowFound = some i →
    let row : OrderRow := {
      tag := tag, stand := st, state := .armed, expiring := old.reel, newReel := n
      newArm := arm, go := decide (standParam s st 9 = 0), past := false, place := none, distance := none
      commitment := none, fire := none, late := false, speedLow := false, spacingShort := false
      reason := none, results := none }
    (∃ t x, exec (.orderSplice ad p) s = .next t ∧ vget t.rows i = some x ∧ x.tag = row.tag ∧
      x.stand = st ∧ x.expiring = row.expiring ∧ x.newReel = row.newReel ∧ x.newArm = arm ∧
      x.go = row.go ∧ t.allocStart = i + 1 ∧ t.port.run = none ∧
      t.port.answer = some ⟨0x90, [statusCode .ok, BitVec.ofNat 8 i.val]⟩ ∧
      OnlyIn [.reels, .verifies, .rows, .allocStart, .schedules, .sequencers, .bus, .port] s t) ∧
    ∀ (j k : SlotId) (pp pl : Pos) (c : Nat), vget s.schedules (lineOf s st) = [] →
      findReel s old.reel = some j → vget s.reels j = some old → findReel s n = some k →
      j ≠ k → splicePositions s st = some (pp, pl) → new.outside = some c →
      (pl - pp).toNat < 2147483648 →
      let a := (vget s.lines (lineOf s st)).speed * standParam s st 3 / 1000 + 3 * c
      2147483648 ≤ (standPos s st - (pp - BitVec.ofNat 32 a)).toNat →
      2147483648 ≤ (standPos s st - (pl - BitVec.ofNat 32 a)).toNat →
      exec (.orderSplice ad p) s = .next (arbitrate { s with
        reels := vset (vset s.reels j (some { old with tag := some tag })) k
          (some { new with tag := some tag })
        rows := vset s.rows i (some { row with place := some ⟨pp, pl, pp⟩, distance := some a })
        allocStart := i + 1
        schedules := vset s.schedules (lineOf s st) [⟨i, st, false, ⟨pp, pl, pp⟩, false, a⟩]
        port := answering (raisedRowPort s i st) 0x10 .ok [BitVec.ofNat 8 i.val] })

/-- CONFIRM sets the go flag of an ARMED row, and of a HELD row tests the commit at once: below the splice
floor the row is ARMED, past and SPEED_LOW before the latest commit point and DROPPED(SPEED_LOW) at or after
it; at or above the floor it commits, LATE at or after it (R75, R76, R80); that the row left ARMED raises its
flag is the model's choice (assumption log 25). CANCEL ORDER closes an order before its paste
CANCELLED(CONSOLE) (R83). RELEASE ORDER empties a closed row and raises its flag (R87). In the other states
each is answered WRONG_STATE, and a tag that no row holds NO_SUCH_ORDER (R69). -/
def Obligations.OrderCommands : Prop :=
  ∀ (ad : Byte) (p : List Byte) (s : State), Addressed s ad → p.length = 1 → item p 0 1 ≤ 63 →
    NothingWaits s →
    let answers : Byte → Status → Host.Outcome State Fault Refusal := fun code x =>
      .next { s with port := answering s.port code x [] }
    (rowOfTag s (item p 0 1) = none → exec (.confirm ad p) s = answers 0x11 .noSuchOrder ∧
      exec (.cancelOrder ad p) s = answers 0x12 .noSuchOrder ∧
      exec (.releaseOrder ad p) s = answers 0x13 .noSuchOrder) ∧
    ∀ i row, rowOfTag s (item p 0 1) = some i → vget s.rows i = some row →
      (row.state = .armed → exec (.confirm ad p) s = .next { s with
        rows := vset s.rows i (some { row with go := true })
        port := answering s.port 0x11 .ok [] }) ∧
      (∀ place a, row.state = .held → row.place = some place → row.distance = some a →
        (standSpeed s row.stand < (vget s.settings.floors (lineOf s row.stand)).splice →
          2147483648 ≤ (standPos s row.stand - (place.plate - BitVec.ofNat 32 a)).toNat →
          exec (.confirm ad p) s = .next { s with
            rows := vset s.rows i (some { row with
              go := true, state := .armed, past := true, speedLow := true })
            port := answering (raisedRowPort s i row.stand) 0x11 .ok [] }) ∧
        (standSpeed s row.stand < (vget s.settings.floors (lineOf s row.stand)).splice →
          (standPos s row.stand - (place.plate - BitVec.ofNat 32 a)).toNat < 2147483648 →
          ∃ t, exec (.confirm ad p) s = .next t ∧ vget t.rows i = some { row with
              go := true, state := .dropped, past := false, place := none, results := none
              reason := some .speedLow } ∧
            t.port.answer = some ⟨0x91, [statusCode .ok]⟩ ∧
            OnlyIn [.reels, .verifies, .rows, .schedules, .sequencers, .bus, .port] s t) ∧
        ((vget s.settings.floors (lineOf s row.stand)).splice ≤ standSpeed s row.stand →
          ∃ t x, exec (.confirm ad p) s = .next t ∧ vget t.rows i = some x ∧ x.state = .accelerating ∧
            x.go = true ∧ x.past = false ∧ x.speedLow = false ∧ x.late = decide
              ((standPos s row.stand - (place.plate - BitVec.ofNat 32 a)).toNat < 2147483648) ∧
            x.commitment.isSome = true ∧ t.port.answer = some ⟨0x91, [statusCode .ok]⟩ ∧
            OnlyIn [.reels, .verifies, .rows, .schedules, .sequencers, .bus, .port] s t)) ∧
      (row.state ≠ .armed → row.state ≠ .held → exec (.confirm ad p) s = answers 0x11 .wrongState) ∧
      ((row.state = .armed ∨ row.state = .held ∨ row.state = .accelerating ∨ row.state = .matched) →
        ∃ t, exec (.cancelOrder ad p) s = .next t ∧
          vget t.rows i = some { row with
            state := .cancelled, past := false, place := none, results := none
            reason := some .console } ∧
          t.port.answer = some ⟨0x92, [statusCode .ok]⟩ ∧
          OnlyIn [.reels, .verifies, .rows, .schedules, .sequencers, .bus, .port] s t) ∧
      (row.state ≠ .armed → row.state ≠ .held → row.state ≠ .accelerating → row.state ≠ .matched →
        exec (.cancelOrder ad p) s = answers 0x12 .wrongState) ∧
      (row.state.isOpen = false → exec (.releaseOrder ad p) s = .next { s with
        rows := vset s.rows i none
        port := answering (raisedRowPort s i row.stand) 0x13 .ok [] }) ∧
      (row.state.isOpen = true → exec (.releaseOrder ad p) s = answers 0x13 .wrongState)

/-! ## Stands, settings, flags and modes -/

/-- INDEX STAND queues INDEX for an ONLINE stand with no open order, no INDEX in progress and no verification,
and is refused by the first test of R160 that fails: STAND_NOT_ONLINE, STAND_BUSY, WRONG_STATE. CLEAR STAND is
refused with WRONG_STATE while the stand's flag is set or its last reading shows STOP_HELD; otherwise it
empties the stand's errors, queue, reads, index record and verification and makes it ONLINE with STATUS queued
when its last reading shows PRESENT, else OFFLINE, where the open order of a stand that was ONLINE meets what
it meets at an entry to FAULT (R168, R155, R163, R129). Each refuses a stand outside 1 to 8 with BAD_VALUE.
That a reading without PRESENT shows STOP_HELD too when its flag is set (assumption log 46), that an INDEX in
an abandoned exchange is in progress (15), and that the arbiter chooses when the command is done (9) is the
model's. -/
def Obligations.StandCommands : Prop :=
  ∀ (ad : Byte) (p : List Byte) (s : State), Addressed s ad → p.length = 1 →
    let bad : Byte → Status → Host.Outcome State Fault Refusal := fun code x =>
      .next { s with port := answering s.port code x [] }
    (item p 0 1 = 0 ∨ 8 < item p 0 1 → NothingWaits s →
      exec (.indexStand ad p) s = bad 0x20 .badValue ∧ exec (.clearStand ad p) s = bad 0x21 .badValue) ∧
    ∀ st : StandId, item p 0 1 = st.val + 1 →
      ((vget s.stands st).condition ≠ .online → NothingWaits s →
        exec (.indexStand ad p) s = bad 0x20 .standNotOnline) ∧
      ((vget s.stands st).condition = .online → openRow s st ≠ none → NothingWaits s →
        exec (.indexStand ad p) s = bad 0x20 .standBusy) ∧
      ((vget s.stands st).condition = .online → openRow s st = none →
        indexInProgress s st = true ∨ vget s.verifies st ≠ none → NothingWaits s →
        exec (.indexStand ad p) s = bad 0x20 .wrongState) ∧
      ((vget s.stands st).condition = .online → openRow s st = none → indexInProgress s st = false →
        vget s.verifies st = none → exec (.indexStand ad p) s = .next (arbitrate { s with
          bus := queuedBus s.bus st ⟨.index, none, none, none⟩
          port := answering s.port 0x20 .ok [] })) ∧
      (flagSet s st.val = true ∨ (vget s.bus.slots st).getLsbD 2 = true → NothingWaits s →
        exec (.clearStand ad p) s = bad 0x21 .wrongState) ∧
      (flagSet s st.val = false → (vget s.bus.slots st).getLsbD 2 = false →
        let x := vget s.stands st
        let none6 : HardErrors := ⟨false, false, false, false, false, false⟩
        let cleared : Bus := { s.bus with
          queues := vset s.bus.queues st [], reads := vset s.bus.reads st []
          indexes := vset s.bus.indexes st none, lapses := vset s.bus.lapses st 0
          pair := abandonIf st (fun _ => true) s.bus.pair }
        ((vget s.bus.slots st).getLsbD 0 = true →
          exec (.clearStand ad p) s = .next (arbitrate { s with
            stands := vset s.stands st { x with
              condition := .online, errors := none6, misses := 0, stopHold := none }
            verifies := vset s.verifies st none
            bus := queuedBus cleared st ⟨.status, none, none, none⟩
            port := answering (raisedPort s st) 0x21 .ok [] })) ∧
        ((vget s.bus.slots st).getLsbD 0 = false →
          (x.condition ≠ .online → exec (.clearStand ad p) s = .next (arbitrate { s with
            stands := vset s.stands st { x with
              condition := .offline, errors := none6, misses := 0, stopHold := none }
            verifies := vset s.verifies st none
            bus := cleared
            port := answering (if x.condition = .offline then s.port else raisedPort s st)
              0x21 .ok [] })) ∧
          (x.condition = .online → ∃ t, exec (.clearStand ad p) s = .next t ∧
            vget t.stands st = { x with
              condition := .offline, errors := none6, misses := 0, stopHold := none } ∧
            OnlyAt st s.stands t.stands ∧ vget t.verifies st = none ∧
            (standParam s st 13 = 1 → flagSet t st.val = true) ∧
            OrderFaulted st .standFault s t ∧ NewReelReturned st s t ∧
            t.port.answer = some ⟨0xA1, [statusCode .ok]⟩ ∧
            OnlyIn [.reels, .verifies, .rows, .schedules, .sequencers, .bus, .stands, .port] s t)))

/-- SET PARAMETER stores the value clamped to its range and answers the value then held; a write at an unused
index is ignored and answered 0 (R172). A write of a stand's line is refused while the stand has a RUNNING
record or an open order, and a change of it empties the stand's arm contexts (R173); that a TURNING
verification keeps its count through it is the model's (assumption log 41). PARAMETER RUN opens a run, and a
DATA frame of one value writes it at the run's next index, which moves on by one and stops at 256 (R176,
R177). A broadcast does the same without an answer (R180), also while an answer is pending, which is the
model's (assumption log 22). -/
def Obligations.SettingCommands : Prop :=
  ∀ (ad : Byte) (p : List Byte) (s : State), s.resetHeld = false → NothingWaits s →
    (Addressed s ad ∨ ad = 0) →
    let clamped : ParamSpec → Nat → Nat := fun x v => max x.lo (min x.hi v)
    let sent : Byte → Status → List Byte → Option Answer := fun code x items =>
      if ad = 0 then s.port.answer else some ⟨code ||| 0x80, statusCode x :: items⟩
    let standSet : StandId → Fin 14 → Nat → Settings := fun st j v =>
      { s.settings with stands := vset s.settings.stands st (vset (vget s.settings.stands st) j v) }
    let lineSet : LineId → Fin 4 → Nat → Settings := fun l j v =>
      { s.settings with lines := vset s.settings.lines l (vset (vget s.settings.lines l) j v) }
    (p.length = 7 →
      (∀ (st : StandId) (j : Fin 14), item p 0 1 = 0 → item p 1 1 = st.val + 1 → item p 2 1 = j.val →
        let v := clamped (vget standSpecs j) (item p 3 4)
        (j ≠ 0 → exec (.setParameter ad p) s = .next { s with
          settings := standSet st j v
          port := { s.port with run := none, answer := sent 0x30 .ok (beBytes 4 v) } }) ∧
        (j = 0 → (runningReel s st).isSome = true ∨ (openRow s st).isSome = true →
          exec (.setParameter ad p) s = .next { s with
            port := { s.port with
              run := none, answer := sent 0x30 .wrongState (beBytes 4 (standParam s st 0)) } }) ∧
        (j = 0 → runningReel s st = none → openRow s st = none →
          exec (.setParameter ad p) s = .next { s with
            settings := standSet st 0 v
            arms := if v = standParam s st 0 then s.arms else
              vset s.arms st ⟨⟨none, none, 0, none⟩, ⟨none, none, 0, none⟩, ⟨none, none, 0, none⟩⟩
            port := { s.port with run := none, answer := sent 0x30 .ok (beBytes 4 v) } })) ∧
      (∀ (l : LineId) (j : Fin 4), item p 0 1 = 1 → item p 1 1 = l.val + 1 → item p 2 1 = j.val →
        let v := clamped (vget lineSpecs j) (item p 3 4)
        (j ≠ 0 → exec (.setParameter ad p) s = .next { s with
          settings := lineSet l j v
          port := { s.port with run := none, answer := sent 0x30 .ok (beBytes 4 v) } }) ∧
        (j = 0 → ∃ t, exec (.setParameter ad p) s = .next t ∧ t.settings = lineSet l 0 v ∧
          t.port.answer = sent 0x30 .ok (beBytes 4 v) ∧ t.port.run = none ∧
          OnlyIn [.reels, .verifies, .rows, .schedules, .sequencers, .bus, .settings, .port] s t)) ∧
      (1 < item p 0 1 ∨ item p 1 1 = 0 → exec (.setParameter ad p) s = .next { s with
        port := { s.port with run := none, answer := sent 0x30 .badValue [] } }) ∧
      (∀ l : LineId, item p 0 1 = 1 → item p 1 1 = l.val + 1 → 4 ≤ item p 2 1 →
        exec (.setParameter ad p) s = .next { s with
          port := { s.port with run := none, answer := sent 0x30 .ok (beBytes 4 0) } }) ∧
      (∀ st : StandId, item p 0 1 = 0 → item p 1 1 = st.val + 1 → 14 ≤ item p 2 1 →
        exec (.setParameter ad p) s = .next { s with
          port := { s.port with run := none, answer := sent 0x30 .ok (beBytes 4 0) } })) ∧
    (p.length = 3 →
      (∀ st : StandId, item p 0 1 = 0 → item p 1 1 = st.val + 1 →
        exec (.parameterRun ad p) s = .next { s with
          port := { s.port with
            run := some ⟨.stand st, item p 2 1⟩, answer := sent 0x32 .ok [] } }) ∧
      (∀ l : LineId, item p 0 1 = 1 → item p 1 1 = l.val + 1 →
        exec (.parameterRun ad p) s = .next { s with
          port := { s.port with
            run := some ⟨.line l, item p 2 1⟩, answer := sent 0x32 .ok [] } }) ∧
      (1 < item p 0 1 ∨ item p 1 1 = 0 → exec (.parameterRun ad p) s = .next { s with
        port := { s.port with run := none, answer := sent 0x32 .badValue [] } })) ∧
    (p.length = 4 →
      (∀ st n, s.port.run = some ⟨.stand st, n⟩ → (∀ j : Fin 14, n = j.val → j ≠ 0 →
        let v := clamped (vget standSpecs j) (item p 0 4)
        exec (.data ad p) s = .next { s with
          settings := standSet st j v
          port := { s.port with
            run := some ⟨.stand st, n + 1⟩, answer := sent 0x33 .ok (beBytes 4 v) } }) ∧
        (14 ≤ n → exec (.data ad p) s = .next { s with
          port := { s.port with
            run := some ⟨.stand st, min 256 (n + 1)⟩, answer := sent 0x33 .ok (beBytes 4 0) } })) ∧
      (∀ l n, s.port.run = some ⟨.line l, n⟩ → ∀ j : Fin 4, n = j.val → j ≠ 0 →
        let v := clamped (vget lineSpecs j) (item p 0 4)
        exec (.data ad p) s = .next { s with
          settings := lineSet l j v
          port := { s.port with
            run := some ⟨.line l, n + 1⟩, answer := sent 0x33 .ok (beBytes 4 v) } }) ∧
      (∀ run, s.port.run = some run → ∃ t, exec (.data ad p) s = .next t ∧
        t.port.run = some ⟨run.target, min 256 (run.next + 1)⟩ ∧ t.port.address = s.port.address) ∧
      (s.port.run = none → exec (.data ad p) s = .next { s with
        port := { s.port with answer := sent 0x33 .wrongState [] } }))

/-- READ CHANGES answers OK with the 28 flags in four bytes, stands, rows 0 to 7, rows 8 to 15 and lines, bits
4 to 7 of the last byte 0, and changes no flag (R184). -/
def Obligations.ReadChanges : Prop :=
  ∀ (ad : Byte) (s : State), Addressed s ad → ∃ b0 b1 b2 b3 : Byte,
    exec (.readChanges ad []) s = .next { s with port := answering s.port 0x40 .ok [b0, b1, b2, b3] } ∧
    (∀ k, k < 8 → b0.getLsbD k = flagSet s k) ∧
    (∀ k, k < 8 → b1.getLsbD k = flagSet s (8 + k)) ∧
    (∀ k, k < 8 → b2.getLsbD k = flagSet s (16 + k)) ∧
    (∀ k, k < 4 → b3.getLsbD k = flagSet s (24 + k)) ∧ ∀ k, 4 ≤ k → b3.getLsbD k = false

/-- ACK CHANGES clears every flag whose mask bit is one and leaves the others, whatever bits 4 to 7 of byte 3
say, and answers OK with the flags after the clearing in the layout of READ CHANGES (R185). -/
def Obligations.AckChanges : Prop :=
  ∀ (ad : Byte) (s : State) (m0 m1 m2 m3 : Byte), Addressed s ad → ∃ t b0 b1 b2 b3,
    exec (.ackChanges ad [m0, m1, m2, m3]) s = .next t ∧
    (∀ k, k < 8 → flagSet t k = (flagSet s k && !m0.getLsbD k)) ∧
    (∀ k, k < 8 → flagSet t (8 + k) = (flagSet s (8 + k) && !m1.getLsbD k)) ∧
    (∀ k, k < 8 → flagSet t (16 + k) = (flagSet s (16 + k) && !m2.getLsbD k)) ∧
    (∀ k, k < 4 → flagSet t (24 + k) = (flagSet s (24 + k) && !m3.getLsbD k)) ∧
    t.port.answer = some ⟨0xC1, [statusCode .ok, b0, b1, b2, b3]⟩ ∧ t.port.run = none ∧
    t.port.address = s.port.address ∧ OnlyIn [.port] s t ∧
    (∀ k, k < 8 → b0.getLsbD k = flagSet t k) ∧
    (∀ k, k < 8 → b1.getLsbD k = flagSet t (8 + k)) ∧
    (∀ k, k < 8 → b2.getLsbD k = flagSet t (16 + k)) ∧
    (∀ k, k < 4 → b3.getLsbD k = flagSet t (24 + k)) ∧ ∀ k, 4 ≤ k → b3.getLsbD k = false

/-- SCAN MODE takes the mode named, with a scan started at once when it turns continuous while the line rests,
and refuses a value above 1 (R135, R187). RESTART, refused while an order is committed or an INDEX, a
verification or a RETRACT is in progress, empties the Order Table and the schedules, removes every order tag,
empties the queues, reads and lapse counts, abandons the request in exchange and clears the flags, and keeps
everything else (R188, R189). That an INDEX of an abandoned exchange counts as in progress is the model's
inference (assumption log 15). -/
def Obligations.ModeAndRestart : Prop :=
  ∀ (ad : Byte) (p : List Byte) (s : State), Addressed s ad →
    (p.length = 1 →
      (item p 0 1 = 0 → exec (.scanMode ad p) s = .next { s with
        bus := { s.bus with
          quiet := false
          scan := if s.bus.quiet = true ∧ s.bus.scan = none then some 0 else s.bus.scan }
        port := answering s.port 0x50 .ok [] }) ∧
      (item p 0 1 = 1 → exec (.scanMode ad p) s = .next { s with
        bus := { s.bus with quiet := true }, port := answering s.port 0x50 .ok [] }) ∧
      (1 < item p 0 1 → exec (.scanMode ad p) s = .next { s with
        port := answering s.port 0x50 .badValue [] })) ∧
    let refused : Prop := (∃ i row, vget s.rows i = some row ∧ row.state.committed = true) ∨
      ∃ st, indexInProgress s st = true ∨ vget s.verifies st ≠ none ∨
        (∃ r ∈ vget s.bus.queues st, r.kind = .retract) ∨ inExchange s st .retract = true
    (refused → exec (.restart ad []) s = .next { s with port := answering s.port 0x51 .wrongState [] }) ∧
    (¬ refused → exec (.restart ad []) s = .next { s with
      reels := s.reels.map fun x => x.map fun r => { r with tag := none }
      rows := Vector.replicate 16 none
      allocStart := 0
      schedules := Vector.replicate 4 []
      bus := { s.bus with
        queues := Vector.replicate 8 [], reads := Vector.replicate 8 [], lapses := Vector.replicate 8 0
        pair := match s.bus.pair with
          | .request st r _ lim => .request st r true lim
          | x => x }
      port := answering { s.port with flags := 0 } 0x51 .ok [] })
end

