-- ==== Sys2Proof/Laws/State.lean ====
section
/-! SUPPORT. One lemma for each field under each setter. -/

namespace Sys2Proof.Machine

open Sys2Proof

@[simp] theorem setNow_now (s : State) (t : Nat) : (setNow s t).now = t := rfl
@[simp] theorem setNow_resetHeld (s : State) (t : Nat) : (setNow s t).resetHeld = s.resetHeld := rfl
@[simp] theorem setNow_lines (s : State) (t : Nat) : (setNow s t).lines = s.lines := rfl
@[simp] theorem setNow_arms (s : State) (t : Nat) : (setNow s t).arms = s.arms := rfl
@[simp] theorem setNow_outputs (s : State) (t : Nat) : (setNow s t).outputs = s.outputs := rfl
@[simp] theorem setNow_reels (s : State) (t : Nat) : (setNow s t).reels = s.reels := rfl
@[simp] theorem setNow_verifies (s : State) (t : Nat) : (setNow s t).verifies = s.verifies := rfl
@[simp] theorem setNow_trackers (s : State) (t : Nat) : (setNow s t).trackers = s.trackers := rfl
@[simp] theorem setNow_rows (s : State) (t : Nat) : (setNow s t).rows = s.rows := rfl
@[simp] theorem setNow_allocStart (s : State) (t : Nat) : (setNow s t).allocStart = s.allocStart := rfl
@[simp] theorem setNow_schedules (s : State) (t : Nat) : (setNow s t).schedules = s.schedules := rfl
@[simp] theorem setNow_sequencers (s : State) (t : Nat) : (setNow s t).sequencers = s.sequencers := rfl
@[simp] theorem setNow_bus (s : State) (t : Nat) : (setNow s t).bus = s.bus := rfl
@[simp] theorem setNow_stands (s : State) (t : Nat) : (setNow s t).stands = s.stands := rfl
@[simp] theorem setNow_settings (s : State) (t : Nat) : (setNow s t).settings = s.settings := rfl
@[simp] theorem setNow_port (s : State) (t : Nat) : (setNow s t).port = s.port := rfl
@[simp] theorem setNow_pending (s : State) (t : Nat) : (setNow s t).pending = s.pending := rfl

@[simp] theorem setResetHeld_now (s : State) (b : Bool) : (setResetHeld s b).now = s.now := rfl
@[simp] theorem setResetHeld_resetHeld (s : State) (b : Bool) : (setResetHeld s b).resetHeld = b := rfl
@[simp] theorem setResetHeld_lines (s : State) (b : Bool) : (setResetHeld s b).lines = s.lines := rfl
@[simp] theorem setResetHeld_arms (s : State) (b : Bool) : (setResetHeld s b).arms = s.arms := rfl
@[simp] theorem setResetHeld_outputs (s : State) (b : Bool) : (setResetHeld s b).outputs = s.outputs := rfl
@[simp] theorem setResetHeld_reels (s : State) (b : Bool) : (setResetHeld s b).reels = s.reels := rfl
@[simp] theorem setResetHeld_verifies (s : State) (b : Bool) : (setResetHeld s b).verifies = s.verifies := rfl
@[simp] theorem setResetHeld_trackers (s : State) (b : Bool) : (setResetHeld s b).trackers = s.trackers := rfl
@[simp] theorem setResetHeld_rows (s : State) (b : Bool) : (setResetHeld s b).rows = s.rows := rfl
@[simp] theorem setResetHeld_allocStart (s : State) (b : Bool) : (setResetHeld s b).allocStart = s.allocStart := rfl
@[simp] theorem setResetHeld_schedules (s : State) (b : Bool) : (setResetHeld s b).schedules = s.schedules := rfl
@[simp] theorem setResetHeld_sequencers (s : State) (b : Bool) : (setResetHeld s b).sequencers = s.sequencers := rfl
@[simp] theorem setResetHeld_bus (s : State) (b : Bool) : (setResetHeld s b).bus = s.bus := rfl
@[simp] theorem setResetHeld_stands (s : State) (b : Bool) : (setResetHeld s b).stands = s.stands := rfl
@[simp] theorem setResetHeld_settings (s : State) (b : Bool) : (setResetHeld s b).settings = s.settings := rfl
@[simp] theorem setResetHeld_port (s : State) (b : Bool) : (setResetHeld s b).port = s.port := rfl
@[simp] theorem setResetHeld_pending (s : State) (b : Bool) : (setResetHeld s b).pending = s.pending := rfl

@[simp] theorem setLine_now (s : State) (l : LineId) (x : LineCounter) : (setLine s l x).now = s.now := rfl
@[simp] theorem setLine_resetHeld (s : State) (l : LineId) (x : LineCounter) : (setLine s l x).resetHeld = s.resetHeld := rfl
@[simp] theorem setLine_lines (s : State) (l : LineId) (x : LineCounter) : (setLine s l x).lines = vset s.lines l x := rfl
@[simp] theorem setLine_arms (s : State) (l : LineId) (x : LineCounter) : (setLine s l x).arms = s.arms := rfl
@[simp] theorem setLine_outputs (s : State) (l : LineId) (x : LineCounter) : (setLine s l x).outputs = s.outputs := rfl
@[simp] theorem setLine_reels (s : State) (l : LineId) (x : LineCounter) : (setLine s l x).reels = s.reels := rfl
@[simp] theorem setLine_verifies (s : State) (l : LineId) (x : LineCounter) : (setLine s l x).verifies = s.verifies := rfl
@[simp] theorem setLine_trackers (s : State) (l : LineId) (x : LineCounter) : (setLine s l x).trackers = s.trackers := rfl
@[simp] theorem setLine_rows (s : State) (l : LineId) (x : LineCounter) : (setLine s l x).rows = s.rows := rfl
@[simp] theorem setLine_allocStart (s : State) (l : LineId) (x : LineCounter) : (setLine s l x).allocStart = s.allocStart := rfl
@[simp] theorem setLine_schedules (s : State) (l : LineId) (x : LineCounter) : (setLine s l x).schedules = s.schedules := rfl
@[simp] theorem setLine_sequencers (s : State) (l : LineId) (x : LineCounter) : (setLine s l x).sequencers = s.sequencers := rfl
@[simp] theorem setLine_bus (s : State) (l : LineId) (x : LineCounter) : (setLine s l x).bus = s.bus := rfl
@[simp] theorem setLine_stands (s : State) (l : LineId) (x : LineCounter) : (setLine s l x).stands = s.stands := rfl
@[simp] theorem setLine_settings (s : State) (l : LineId) (x : LineCounter) : (setLine s l x).settings = s.settings := rfl
@[simp] theorem setLine_port (s : State) (l : LineId) (x : LineCounter) : (setLine s l x).port = s.port := rfl
@[simp] theorem setLine_pending (s : State) (l : LineId) (x : LineCounter) : (setLine s l x).pending = s.pending := rfl

@[simp] theorem setArms_now (s : State) (st : StandId) (x : PerArm ArmContext) : (setArms s st x).now = s.now := rfl
@[simp] theorem setArms_resetHeld (s : State) (st : StandId) (x : PerArm ArmContext) : (setArms s st x).resetHeld = s.resetHeld := rfl
@[simp] theorem setArms_lines (s : State) (st : StandId) (x : PerArm ArmContext) : (setArms s st x).lines = s.lines := rfl
@[simp] theorem setArms_arms (s : State) (st : StandId) (x : PerArm ArmContext) : (setArms s st x).arms = vset s.arms st x := rfl
@[simp] theorem setArms_outputs (s : State) (st : StandId) (x : PerArm ArmContext) : (setArms s st x).outputs = s.outputs := rfl
@[simp] theorem setArms_reels (s : State) (st : StandId) (x : PerArm ArmContext) : (setArms s st x).reels = s.reels := rfl
@[simp] theorem setArms_verifies (s : State) (st : StandId) (x : PerArm ArmContext) : (setArms s st x).verifies = s.verifies := rfl
@[simp] theorem setArms_trackers (s : State) (st : StandId) (x : PerArm ArmContext) : (setArms s st x).trackers = s.trackers := rfl
@[simp] theorem setArms_rows (s : State) (st : StandId) (x : PerArm ArmContext) : (setArms s st x).rows = s.rows := rfl
@[simp] theorem setArms_allocStart (s : State) (st : StandId) (x : PerArm ArmContext) : (setArms s st x).allocStart = s.allocStart := rfl
@[simp] theorem setArms_schedules (s : State) (st : StandId) (x : PerArm ArmContext) : (setArms s st x).schedules = s.schedules := rfl
@[simp] theorem setArms_sequencers (s : State) (st : StandId) (x : PerArm ArmContext) : (setArms s st x).sequencers = s.sequencers := rfl
@[simp] theorem setArms_bus (s : State) (st : StandId) (x : PerArm ArmContext) : (setArms s st x).bus = s.bus := rfl
@[simp] theorem setArms_stands (s : State) (st : StandId) (x : PerArm ArmContext) : (setArms s st x).stands = s.stands := rfl
@[simp] theorem setArms_settings (s : State) (st : StandId) (x : PerArm ArmContext) : (setArms s st x).settings = s.settings := rfl
@[simp] theorem setArms_port (s : State) (st : StandId) (x : PerArm ArmContext) : (setArms s st x).port = s.port := rfl
@[simp] theorem setArms_pending (s : State) (st : StandId) (x : PerArm ArmContext) : (setArms s st x).pending = s.pending := rfl

@[simp] theorem setOutputs_now (s : State) (st : StandId) (x : Outputs) : (setOutputs s st x).now = s.now := rfl
@[simp] theorem setOutputs_resetHeld (s : State) (st : StandId) (x : Outputs) : (setOutputs s st x).resetHeld = s.resetHeld := rfl
@[simp] theorem setOutputs_lines (s : State) (st : StandId) (x : Outputs) : (setOutputs s st x).lines = s.lines := rfl
@[simp] theorem setOutputs_arms (s : State) (st : StandId) (x : Outputs) : (setOutputs s st x).arms = s.arms := rfl
@[simp] theorem setOutputs_outputs (s : State) (st : StandId) (x : Outputs) : (setOutputs s st x).outputs = vset s.outputs st x := rfl
@[simp] theorem setOutputs_reels (s : State) (st : StandId) (x : Outputs) : (setOutputs s st x).reels = s.reels := rfl
@[simp] theorem setOutputs_verifies (s : State) (st : StandId) (x : Outputs) : (setOutputs s st x).verifies = s.verifies := rfl
@[simp] theorem setOutputs_trackers (s : State) (st : StandId) (x : Outputs) : (setOutputs s st x).trackers = s.trackers := rfl
@[simp] theorem setOutputs_rows (s : State) (st : StandId) (x : Outputs) : (setOutputs s st x).rows = s.rows := rfl
@[simp] theorem setOutputs_allocStart (s : State) (st : StandId) (x : Outputs) : (setOutputs s st x).allocStart = s.allocStart := rfl
@[simp] theorem setOutputs_schedules (s : State) (st : StandId) (x : Outputs) : (setOutputs s st x).schedules = s.schedules := rfl
@[simp] theorem setOutputs_sequencers (s : State) (st : StandId) (x : Outputs) : (setOutputs s st x).sequencers = s.sequencers := rfl
@[simp] theorem setOutputs_bus (s : State) (st : StandId) (x : Outputs) : (setOutputs s st x).bus = s.bus := rfl
@[simp] theorem setOutputs_stands (s : State) (st : StandId) (x : Outputs) : (setOutputs s st x).stands = s.stands := rfl
@[simp] theorem setOutputs_settings (s : State) (st : StandId) (x : Outputs) : (setOutputs s st x).settings = s.settings := rfl
@[simp] theorem setOutputs_port (s : State) (st : StandId) (x : Outputs) : (setOutputs s st x).port = s.port := rfl
@[simp] theorem setOutputs_pending (s : State) (st : StandId) (x : Outputs) : (setOutputs s st x).pending = s.pending := rfl

@[simp] theorem setReel_now (s : State) (i : SlotId) (x : Option ReelRecord) : (setReel s i x).now = s.now := rfl
@[simp] theorem setReel_resetHeld (s : State) (i : SlotId) (x : Option ReelRecord) : (setReel s i x).resetHeld = s.resetHeld := rfl
@[simp] theorem setReel_lines (s : State) (i : SlotId) (x : Option ReelRecord) : (setReel s i x).lines = s.lines := rfl
@[simp] theorem setReel_arms (s : State) (i : SlotId) (x : Option ReelRecord) : (setReel s i x).arms = s.arms := rfl
@[simp] theorem setReel_outputs (s : State) (i : SlotId) (x : Option ReelRecord) : (setReel s i x).outputs = s.outputs := rfl
@[simp] theorem setReel_reels (s : State) (i : SlotId) (x : Option ReelRecord) : (setReel s i x).reels = vset s.reels i x := rfl
@[simp] theorem setReel_verifies (s : State) (i : SlotId) (x : Option ReelRecord) : (setReel s i x).verifies = s.verifies := rfl
@[simp] theorem setReel_trackers (s : State) (i : SlotId) (x : Option ReelRecord) : (setReel s i x).trackers = s.trackers := rfl
@[simp] theorem setReel_rows (s : State) (i : SlotId) (x : Option ReelRecord) : (setReel s i x).rows = s.rows := rfl
@[simp] theorem setReel_allocStart (s : State) (i : SlotId) (x : Option ReelRecord) : (setReel s i x).allocStart = s.allocStart := rfl
@[simp] theorem setReel_schedules (s : State) (i : SlotId) (x : Option ReelRecord) : (setReel s i x).schedules = s.schedules := rfl
@[simp] theorem setReel_sequencers (s : State) (i : SlotId) (x : Option ReelRecord) : (setReel s i x).sequencers = s.sequencers := rfl
@[simp] theorem setReel_bus (s : State) (i : SlotId) (x : Option ReelRecord) : (setReel s i x).bus = s.bus := rfl
@[simp] theorem setReel_stands (s : State) (i : SlotId) (x : Option ReelRecord) : (setReel s i x).stands = s.stands := rfl
@[simp] theorem setReel_settings (s : State) (i : SlotId) (x : Option ReelRecord) : (setReel s i x).settings = s.settings := rfl
@[simp] theorem setReel_port (s : State) (i : SlotId) (x : Option ReelRecord) : (setReel s i x).port = s.port := rfl
@[simp] theorem setReel_pending (s : State) (i : SlotId) (x : Option ReelRecord) : (setReel s i x).pending = s.pending := rfl

@[simp] theorem setVerify_now (s : State) (st : StandId) (x : Option VerifyRun) : (setVerify s st x).now = s.now := rfl
@[simp] theorem setVerify_resetHeld (s : State) (st : StandId) (x : Option VerifyRun) : (setVerify s st x).resetHeld = s.resetHeld := rfl
@[simp] theorem setVerify_lines (s : State) (st : StandId) (x : Option VerifyRun) : (setVerify s st x).lines = s.lines := rfl
@[simp] theorem setVerify_arms (s : State) (st : StandId) (x : Option VerifyRun) : (setVerify s st x).arms = s.arms := rfl
@[simp] theorem setVerify_outputs (s : State) (st : StandId) (x : Option VerifyRun) : (setVerify s st x).outputs = s.outputs := rfl
@[simp] theorem setVerify_reels (s : State) (st : StandId) (x : Option VerifyRun) : (setVerify s st x).reels = s.reels := rfl
@[simp] theorem setVerify_verifies (s : State) (st : StandId) (x : Option VerifyRun) : (setVerify s st x).verifies = vset s.verifies st x := rfl
@[simp] theorem setVerify_trackers (s : State) (st : StandId) (x : Option VerifyRun) : (setVerify s st x).trackers = s.trackers := rfl
@[simp] theorem setVerify_rows (s : State) (st : StandId) (x : Option VerifyRun) : (setVerify s st x).rows = s.rows := rfl
@[simp] theorem setVerify_allocStart (s : State) (st : StandId) (x : Option VerifyRun) : (setVerify s st x).allocStart = s.allocStart := rfl
@[simp] theorem setVerify_schedules (s : State) (st : StandId) (x : Option VerifyRun) : (setVerify s st x).schedules = s.schedules := rfl
@[simp] theorem setVerify_sequencers (s : State) (st : StandId) (x : Option VerifyRun) : (setVerify s st x).sequencers = s.sequencers := rfl
@[simp] theorem setVerify_bus (s : State) (st : StandId) (x : Option VerifyRun) : (setVerify s st x).bus = s.bus := rfl
@[simp] theorem setVerify_stands (s : State) (st : StandId) (x : Option VerifyRun) : (setVerify s st x).stands = s.stands := rfl
@[simp] theorem setVerify_settings (s : State) (st : StandId) (x : Option VerifyRun) : (setVerify s st x).settings = s.settings := rfl
@[simp] theorem setVerify_port (s : State) (st : StandId) (x : Option VerifyRun) : (setVerify s st x).port = s.port := rfl
@[simp] theorem setVerify_pending (s : State) (st : StandId) (x : Option VerifyRun) : (setVerify s st x).pending = s.pending := rfl

@[simp] theorem setTracker_now (s : State) (st : StandId) (x : Option Tracker) : (setTracker s st x).now = s.now := rfl
@[simp] theorem setTracker_resetHeld (s : State) (st : StandId) (x : Option Tracker) : (setTracker s st x).resetHeld = s.resetHeld := rfl
@[simp] theorem setTracker_lines (s : State) (st : StandId) (x : Option Tracker) : (setTracker s st x).lines = s.lines := rfl
@[simp] theorem setTracker_arms (s : State) (st : StandId) (x : Option Tracker) : (setTracker s st x).arms = s.arms := rfl
@[simp] theorem setTracker_outputs (s : State) (st : StandId) (x : Option Tracker) : (setTracker s st x).outputs = s.outputs := rfl
@[simp] theorem setTracker_reels (s : State) (st : StandId) (x : Option Tracker) : (setTracker s st x).reels = s.reels := rfl
@[simp] theorem setTracker_verifies (s : State) (st : StandId) (x : Option Tracker) : (setTracker s st x).verifies = s.verifies := rfl
@[simp] theorem setTracker_trackers (s : State) (st : StandId) (x : Option Tracker) : (setTracker s st x).trackers = vset s.trackers st x := rfl
@[simp] theorem setTracker_rows (s : State) (st : StandId) (x : Option Tracker) : (setTracker s st x).rows = s.rows := rfl
@[simp] theorem setTracker_allocStart (s : State) (st : StandId) (x : Option Tracker) : (setTracker s st x).allocStart = s.allocStart := rfl
@[simp] theorem setTracker_schedules (s : State) (st : StandId) (x : Option Tracker) : (setTracker s st x).schedules = s.schedules := rfl
@[simp] theorem setTracker_sequencers (s : State) (st : StandId) (x : Option Tracker) : (setTracker s st x).sequencers = s.sequencers := rfl
@[simp] theorem setTracker_bus (s : State) (st : StandId) (x : Option Tracker) : (setTracker s st x).bus = s.bus := rfl
@[simp] theorem setTracker_stands (s : State) (st : StandId) (x : Option Tracker) : (setTracker s st x).stands = s.stands := rfl
@[simp] theorem setTracker_settings (s : State) (st : StandId) (x : Option Tracker) : (setTracker s st x).settings = s.settings := rfl
@[simp] theorem setTracker_port (s : State) (st : StandId) (x : Option Tracker) : (setTracker s st x).port = s.port := rfl
@[simp] theorem setTracker_pending (s : State) (st : StandId) (x : Option Tracker) : (setTracker s st x).pending = s.pending := rfl

@[simp] theorem setRow_now (s : State) (r : RowId) (x : Option OrderRow) : (setRow s r x).now = s.now := rfl
@[simp] theorem setRow_resetHeld (s : State) (r : RowId) (x : Option OrderRow) : (setRow s r x).resetHeld = s.resetHeld := rfl
@[simp] theorem setRow_lines (s : State) (r : RowId) (x : Option OrderRow) : (setRow s r x).lines = s.lines := rfl
@[simp] theorem setRow_arms (s : State) (r : RowId) (x : Option OrderRow) : (setRow s r x).arms = s.arms := rfl
@[simp] theorem setRow_outputs (s : State) (r : RowId) (x : Option OrderRow) : (setRow s r x).outputs = s.outputs := rfl
@[simp] theorem setRow_reels (s : State) (r : RowId) (x : Option OrderRow) : (setRow s r x).reels = s.reels := rfl
@[simp] theorem setRow_verifies (s : State) (r : RowId) (x : Option OrderRow) : (setRow s r x).verifies = s.verifies := rfl
@[simp] theorem setRow_trackers (s : State) (r : RowId) (x : Option OrderRow) : (setRow s r x).trackers = s.trackers := rfl
@[simp] theorem setRow_rows (s : State) (r : RowId) (x : Option OrderRow) : (setRow s r x).rows = vset s.rows r x := rfl
@[simp] theorem setRow_allocStart (s : State) (r : RowId) (x : Option OrderRow) : (setRow s r x).allocStart = s.allocStart := rfl
@[simp] theorem setRow_schedules (s : State) (r : RowId) (x : Option OrderRow) : (setRow s r x).schedules = s.schedules := rfl
@[simp] theorem setRow_sequencers (s : State) (r : RowId) (x : Option OrderRow) : (setRow s r x).sequencers = s.sequencers := rfl
@[simp] theorem setRow_bus (s : State) (r : RowId) (x : Option OrderRow) : (setRow s r x).bus = s.bus := rfl
@[simp] theorem setRow_stands (s : State) (r : RowId) (x : Option OrderRow) : (setRow s r x).stands = s.stands := rfl
@[simp] theorem setRow_settings (s : State) (r : RowId) (x : Option OrderRow) : (setRow s r x).settings = s.settings := rfl
@[simp] theorem setRow_port (s : State) (r : RowId) (x : Option OrderRow) : (setRow s r x).port = s.port := rfl
@[simp] theorem setRow_pending (s : State) (r : RowId) (x : Option OrderRow) : (setRow s r x).pending = s.pending := rfl

@[simp] theorem setAllocStart_now (s : State) (r : RowId) : (setAllocStart s r).now = s.now := rfl
@[simp] theorem setAllocStart_resetHeld (s : State) (r : RowId) : (setAllocStart s r).resetHeld = s.resetHeld := rfl
@[simp] theorem setAllocStart_lines (s : State) (r : RowId) : (setAllocStart s r).lines = s.lines := rfl
@[simp] theorem setAllocStart_arms (s : State) (r : RowId) : (setAllocStart s r).arms = s.arms := rfl
@[simp] theorem setAllocStart_outputs (s : State) (r : RowId) : (setAllocStart s r).outputs = s.outputs := rfl
@[simp] theorem setAllocStart_reels (s : State) (r : RowId) : (setAllocStart s r).reels = s.reels := rfl
@[simp] theorem setAllocStart_verifies (s : State) (r : RowId) : (setAllocStart s r).verifies = s.verifies := rfl
@[simp] theorem setAllocStart_trackers (s : State) (r : RowId) : (setAllocStart s r).trackers = s.trackers := rfl
@[simp] theorem setAllocStart_rows (s : State) (r : RowId) : (setAllocStart s r).rows = s.rows := rfl
@[simp] theorem setAllocStart_allocStart (s : State) (r : RowId) : (setAllocStart s r).allocStart = r := rfl
@[simp] theorem setAllocStart_schedules (s : State) (r : RowId) : (setAllocStart s r).schedules = s.schedules := rfl
@[simp] theorem setAllocStart_sequencers (s : State) (r : RowId) : (setAllocStart s r).sequencers = s.sequencers := rfl
@[simp] theorem setAllocStart_bus (s : State) (r : RowId) : (setAllocStart s r).bus = s.bus := rfl
@[simp] theorem setAllocStart_stands (s : State) (r : RowId) : (setAllocStart s r).stands = s.stands := rfl
@[simp] theorem setAllocStart_settings (s : State) (r : RowId) : (setAllocStart s r).settings = s.settings := rfl
@[simp] theorem setAllocStart_port (s : State) (r : RowId) : (setAllocStart s r).port = s.port := rfl
@[simp] theorem setAllocStart_pending (s : State) (r : RowId) : (setAllocStart s r).pending = s.pending := rfl

@[simp] theorem setSchedule_now (s : State) (l : LineId) (x : List Entry) : (setSchedule s l x).now = s.now := rfl
@[simp] theorem setSchedule_resetHeld (s : State) (l : LineId) (x : List Entry) : (setSchedule s l x).resetHeld = s.resetHeld := rfl
@[simp] theorem setSchedule_lines (s : State) (l : LineId) (x : List Entry) : (setSchedule s l x).lines = s.lines := rfl
@[simp] theorem setSchedule_arms (s : State) (l : LineId) (x : List Entry) : (setSchedule s l x).arms = s.arms := rfl
@[simp] theorem setSchedule_outputs (s : State) (l : LineId) (x : List Entry) : (setSchedule s l x).outputs = s.outputs := rfl
@[simp] theorem setSchedule_reels (s : State) (l : LineId) (x : List Entry) : (setSchedule s l x).reels = s.reels := rfl
@[simp] theorem setSchedule_verifies (s : State) (l : LineId) (x : List Entry) : (setSchedule s l x).verifies = s.verifies := rfl
@[simp] theorem setSchedule_trackers (s : State) (l : LineId) (x : List Entry) : (setSchedule s l x).trackers = s.trackers := rfl
@[simp] theorem setSchedule_rows (s : State) (l : LineId) (x : List Entry) : (setSchedule s l x).rows = s.rows := rfl
@[simp] theorem setSchedule_allocStart (s : State) (l : LineId) (x : List Entry) : (setSchedule s l x).allocStart = s.allocStart := rfl
@[simp] theorem setSchedule_schedules (s : State) (l : LineId) (x : List Entry) : (setSchedule s l x).schedules = vset s.schedules l x := rfl
@[simp] theorem setSchedule_sequencers (s : State) (l : LineId) (x : List Entry) : (setSchedule s l x).sequencers = s.sequencers := rfl
@[simp] theorem setSchedule_bus (s : State) (l : LineId) (x : List Entry) : (setSchedule s l x).bus = s.bus := rfl
@[simp] theorem setSchedule_stands (s : State) (l : LineId) (x : List Entry) : (setSchedule s l x).stands = s.stands := rfl
@[simp] theorem setSchedule_settings (s : State) (l : LineId) (x : List Entry) : (setSchedule s l x).settings = s.settings := rfl
@[simp] theorem setSchedule_port (s : State) (l : LineId) (x : List Entry) : (setSchedule s l x).port = s.port := rfl
@[simp] theorem setSchedule_pending (s : State) (l : LineId) (x : List Entry) : (setSchedule s l x).pending = s.pending := rfl

@[simp] theorem setSequencer_now (s : State) (st : StandId) (x : Option Sequencer) : (setSequencer s st x).now = s.now := rfl
@[simp] theorem setSequencer_resetHeld (s : State) (st : StandId) (x : Option Sequencer) : (setSequencer s st x).resetHeld = s.resetHeld := rfl
@[simp] theorem setSequencer_lines (s : State) (st : StandId) (x : Option Sequencer) : (setSequencer s st x).lines = s.lines := rfl
@[simp] theorem setSequencer_arms (s : State) (st : StandId) (x : Option Sequencer) : (setSequencer s st x).arms = s.arms := rfl
@[simp] theorem setSequencer_outputs (s : State) (st : StandId) (x : Option Sequencer) : (setSequencer s st x).outputs = s.outputs := rfl
@[simp] theorem setSequencer_reels (s : State) (st : StandId) (x : Option Sequencer) : (setSequencer s st x).reels = s.reels := rfl
@[simp] theorem setSequencer_verifies (s : State) (st : StandId) (x : Option Sequencer) : (setSequencer s st x).verifies = s.verifies := rfl
@[simp] theorem setSequencer_trackers (s : State) (st : StandId) (x : Option Sequencer) : (setSequencer s st x).trackers = s.trackers := rfl
@[simp] theorem setSequencer_rows (s : State) (st : StandId) (x : Option Sequencer) : (setSequencer s st x).rows = s.rows := rfl
@[simp] theorem setSequencer_allocStart (s : State) (st : StandId) (x : Option Sequencer) : (setSequencer s st x).allocStart = s.allocStart := rfl
@[simp] theorem setSequencer_schedules (s : State) (st : StandId) (x : Option Sequencer) : (setSequencer s st x).schedules = s.schedules := rfl
@[simp] theorem setSequencer_sequencers (s : State) (st : StandId) (x : Option Sequencer) : (setSequencer s st x).sequencers = vset s.sequencers st x := rfl
@[simp] theorem setSequencer_bus (s : State) (st : StandId) (x : Option Sequencer) : (setSequencer s st x).bus = s.bus := rfl
@[simp] theorem setSequencer_stands (s : State) (st : StandId) (x : Option Sequencer) : (setSequencer s st x).stands = s.stands := rfl
@[simp] theorem setSequencer_settings (s : State) (st : StandId) (x : Option Sequencer) : (setSequencer s st x).settings = s.settings := rfl
@[simp] theorem setSequencer_port (s : State) (st : StandId) (x : Option Sequencer) : (setSequencer s st x).port = s.port := rfl
@[simp] theorem setSequencer_pending (s : State) (st : StandId) (x : Option Sequencer) : (setSequencer s st x).pending = s.pending := rfl

@[simp] theorem setBus_now (s : State) (b : Bus) : (setBus s b).now = s.now := rfl
@[simp] theorem setBus_resetHeld (s : State) (b : Bus) : (setBus s b).resetHeld = s.resetHeld := rfl
@[simp] theorem setBus_lines (s : State) (b : Bus) : (setBus s b).lines = s.lines := rfl
@[simp] theorem setBus_arms (s : State) (b : Bus) : (setBus s b).arms = s.arms := rfl
@[simp] theorem setBus_outputs (s : State) (b : Bus) : (setBus s b).outputs = s.outputs := rfl
@[simp] theorem setBus_reels (s : State) (b : Bus) : (setBus s b).reels = s.reels := rfl
@[simp] theorem setBus_verifies (s : State) (b : Bus) : (setBus s b).verifies = s.verifies := rfl
@[simp] theorem setBus_trackers (s : State) (b : Bus) : (setBus s b).trackers = s.trackers := rfl
@[simp] theorem setBus_rows (s : State) (b : Bus) : (setBus s b).rows = s.rows := rfl
@[simp] theorem setBus_allocStart (s : State) (b : Bus) : (setBus s b).allocStart = s.allocStart := rfl
@[simp] theorem setBus_schedules (s : State) (b : Bus) : (setBus s b).schedules = s.schedules := rfl
@[simp] theorem setBus_sequencers (s : State) (b : Bus) : (setBus s b).sequencers = s.sequencers := rfl
@[simp] theorem setBus_bus (s : State) (b : Bus) : (setBus s b).bus = b := rfl
@[simp] theorem setBus_stands (s : State) (b : Bus) : (setBus s b).stands = s.stands := rfl
@[simp] theorem setBus_settings (s : State) (b : Bus) : (setBus s b).settings = s.settings := rfl
@[simp] theorem setBus_port (s : State) (b : Bus) : (setBus s b).port = s.port := rfl
@[simp] theorem setBus_pending (s : State) (b : Bus) : (setBus s b).pending = s.pending := rfl

@[simp] theorem setStand_now (s : State) (st : StandId) (x : StandContext) : (setStand s st x).now = s.now := rfl
@[simp] theorem setStand_resetHeld (s : State) (st : StandId) (x : StandContext) : (setStand s st x).resetHeld = s.resetHeld := rfl
@[simp] theorem setStand_lines (s : State) (st : StandId) (x : StandContext) : (setStand s st x).lines = s.lines := rfl
@[simp] theorem setStand_arms (s : State) (st : StandId) (x : StandContext) : (setStand s st x).arms = s.arms := rfl
@[simp] theorem setStand_outputs (s : State) (st : StandId) (x : StandContext) : (setStand s st x).outputs = s.outputs := rfl
@[simp] theorem setStand_reels (s : State) (st : StandId) (x : StandContext) : (setStand s st x).reels = s.reels := rfl
@[simp] theorem setStand_verifies (s : State) (st : StandId) (x : StandContext) : (setStand s st x).verifies = s.verifies := rfl
@[simp] theorem setStand_trackers (s : State) (st : StandId) (x : StandContext) : (setStand s st x).trackers = s.trackers := rfl
@[simp] theorem setStand_rows (s : State) (st : StandId) (x : StandContext) : (setStand s st x).rows = s.rows := rfl
@[simp] theorem setStand_allocStart (s : State) (st : StandId) (x : StandContext) : (setStand s st x).allocStart = s.allocStart := rfl
@[simp] theorem setStand_schedules (s : State) (st : StandId) (x : StandContext) : (setStand s st x).schedules = s.schedules := rfl
@[simp] theorem setStand_sequencers (s : State) (st : StandId) (x : StandContext) : (setStand s st x).sequencers = s.sequencers := rfl
@[simp] theorem setStand_bus (s : State) (st : StandId) (x : StandContext) : (setStand s st x).bus = s.bus := rfl
@[simp] theorem setStand_stands (s : State) (st : StandId) (x : StandContext) : (setStand s st x).stands = vset s.stands st x := rfl
@[simp] theorem setStand_settings (s : State) (st : StandId) (x : StandContext) : (setStand s st x).settings = s.settings := rfl
@[simp] theorem setStand_port (s : State) (st : StandId) (x : StandContext) : (setStand s st x).port = s.port := rfl
@[simp] theorem setStand_pending (s : State) (st : StandId) (x : StandContext) : (setStand s st x).pending = s.pending := rfl

@[simp] theorem setSettings_now (s : State) (x : Settings) : (setSettings s x).now = s.now := rfl
@[simp] theorem setSettings_resetHeld (s : State) (x : Settings) : (setSettings s x).resetHeld = s.resetHeld := rfl
@[simp] theorem setSettings_lines (s : State) (x : Settings) : (setSettings s x).lines = s.lines := rfl
@[simp] theorem setSettings_arms (s : State) (x : Settings) : (setSettings s x).arms = s.arms := rfl
@[simp] theorem setSettings_outputs (s : State) (x : Settings) : (setSettings s x).outputs = s.outputs := rfl
@[simp] theorem setSettings_reels (s : State) (x : Settings) : (setSettings s x).reels = s.reels := rfl
@[simp] theorem setSettings_verifies (s : State) (x : Settings) : (setSettings s x).verifies = s.verifies := rfl
@[simp] theorem setSettings_trackers (s : State) (x : Settings) : (setSettings s x).trackers = s.trackers := rfl
@[simp] theorem setSettings_rows (s : State) (x : Settings) : (setSettings s x).rows = s.rows := rfl
@[simp] theorem setSettings_allocStart (s : State) (x : Settings) : (setSettings s x).allocStart = s.allocStart := rfl
@[simp] theorem setSettings_schedules (s : State) (x : Settings) : (setSettings s x).schedules = s.schedules := rfl
@[simp] theorem setSettings_sequencers (s : State) (x : Settings) : (setSettings s x).sequencers = s.sequencers := rfl
@[simp] theorem setSettings_bus (s : State) (x : Settings) : (setSettings s x).bus = s.bus := rfl
@[simp] theorem setSettings_stands (s : State) (x : Settings) : (setSettings s x).stands = s.stands := rfl
@[simp] theorem setSettings_settings (s : State) (x : Settings) : (setSettings s x).settings = x := rfl
@[simp] theorem setSettings_port (s : State) (x : Settings) : (setSettings s x).port = s.port := rfl
@[simp] theorem setSettings_pending (s : State) (x : Settings) : (setSettings s x).pending = s.pending := rfl

@[simp] theorem setPort_now (s : State) (p : Port) : (setPort s p).now = s.now := rfl
@[simp] theorem setPort_resetHeld (s : State) (p : Port) : (setPort s p).resetHeld = s.resetHeld := rfl
@[simp] theorem setPort_lines (s : State) (p : Port) : (setPort s p).lines = s.lines := rfl
@[simp] theorem setPort_arms (s : State) (p : Port) : (setPort s p).arms = s.arms := rfl
@[simp] theorem setPort_outputs (s : State) (p : Port) : (setPort s p).outputs = s.outputs := rfl
@[simp] theorem setPort_reels (s : State) (p : Port) : (setPort s p).reels = s.reels := rfl
@[simp] theorem setPort_verifies (s : State) (p : Port) : (setPort s p).verifies = s.verifies := rfl
@[simp] theorem setPort_trackers (s : State) (p : Port) : (setPort s p).trackers = s.trackers := rfl
@[simp] theorem setPort_rows (s : State) (p : Port) : (setPort s p).rows = s.rows := rfl
@[simp] theorem setPort_allocStart (s : State) (p : Port) : (setPort s p).allocStart = s.allocStart := rfl
@[simp] theorem setPort_schedules (s : State) (p : Port) : (setPort s p).schedules = s.schedules := rfl
@[simp] theorem setPort_sequencers (s : State) (p : Port) : (setPort s p).sequencers = s.sequencers := rfl
@[simp] theorem setPort_bus (s : State) (p : Port) : (setPort s p).bus = s.bus := rfl
@[simp] theorem setPort_stands (s : State) (p : Port) : (setPort s p).stands = s.stands := rfl
@[simp] theorem setPort_settings (s : State) (p : Port) : (setPort s p).settings = s.settings := rfl
@[simp] theorem setPort_port (s : State) (p : Port) : (setPort s p).port = p := rfl
@[simp] theorem setPort_pending (s : State) (p : Port) : (setPort s p).pending = s.pending := rfl

end Sys2Proof.Machine
end

