-- ==== Sys2Proof/Laws/Tables.lean ====
section
/-! SUPPORT. The laws of the tables of a fixed number of things and of the three values of a stand's arms. -/

namespace Sys2Proof.Machine

open Sys2Proof

@[simp] theorem vget_vset_self {α : Type} {n : Nat} (v : Vector α n) (i : Fin n) (x : α) :
    vget (vset v i x) i = x := by simp [vget, vset]

theorem vget_vset_ne {α : Type} {n : Nat} (v : Vector α n) (i j : Fin n) (x : α) (h : j ≠ i) :
    vget (vset v i x) j = vget v j := by
  have h' : i.val ≠ j.val := fun e => h (Fin.ext e.symm)
  simp [vget, vset, h']

theorem vget_vset {α : Type} {n : Nat} (v : Vector α n) (i j : Fin n) (x : α) :
    vget (vset v i x) j = if j = i then x else vget v j := by
  by_cases h : j = i
  · subst h; simp
  · simp [h, vget_vset_ne]

@[simp] theorem vget_replicate {α : Type} {n : Nat} (x : α) (i : Fin n) :
    vget (Vector.replicate n x) i = x := by simp [vget]

@[simp] theorem vget_ofFn {α : Type} {n : Nat} (f : Fin n → α) (i : Fin n) :
    vget (Vector.ofFn f) i = f i := by simp [vget]

@[simp] theorem vget_map {α β : Type} {n : Nat} (f : α → β) (v : Vector α n) (i : Fin n) :
    vget (v.map f) i = f (vget v i) := by simp [vget]

@[simp] theorem vset_vget_self {α : Type} {n : Nat} (v : Vector α n) (i : Fin n) :
    vset v i (vget v i) = v := by
  apply Vector.ext
  intro j hj
  by_cases h : i.val = j
  · subst h; simp [vset, vget]
  · simp [vset, h]

@[simp] theorem armGet_armSet_self {α : Type} (p : PerArm α) (arm : Arm) (x : α) :
    armGet (armSet p arm x) arm = x := by cases arm <;> rfl

theorem armGet_armSet_ne {α : Type} (p : PerArm α) (y z : Arm) (x : α) (h : z ≠ y) :
    armGet (armSet p y x) z = armGet p z := by cases y <;> cases z <;> first | rfl | exact absurd rfl h

@[simp] theorem armGet_perArm {α : Type} (x : α) (arm : Arm) : armGet (perArm x) arm = x := by
  cases arm <;> rfl

@[simp] theorem mem_indices {n : Nat} (i : Fin n) : i ∈ indices n := List.mem_finRange i

end Sys2Proof.Machine
end

