-- ==== Sys2Proof/Laws/Keeps.lean ====
section
/-! SUPPORT. What every shared operation keeps: one relation between the state before and after, and one lemma
for each shared operation. A lemma reads backwards: what held up to the operation's argument holds up to its
result, so that a meaning's lemma is the chain of its operations. -/

namespace Sys2Proof.Machine

open Sys2Proof

/-- What the operations of the orders, splices, trackers, verifications and stands keep. -/
structure Keeps (s t : State) : Prop where
  now : t.now = s.now
  resetHeld : t.resetHeld = s.resetHeld
  lines : t.lines = s.lines
  allocStart : t.allocStart = s.allocStart
  settings : t.settings = s.settings
  pending : t.pending = s.pending
  address : t.port.address = s.port.address
  run : t.port.run = s.port.run
  answer : t.port.answer = s.port.answer
  flags : FlagsKept s.port.flags t.port.flags
  scan : SameScan s.bus t.bus
  rows : ∀ r, RowKept (vget s.rows r) (vget t.rows r)
  reels : ∀ i, RecordKept (vget s.reels i) (vget t.reels i)
  stands : ∀ st, StandKept (vget s.stands st) (vget t.stands st)
  queues : QueuesOk s → QueuesOk t
  tapes : TapeCountsInRange s → TapeCountsInRange t

theorem FlagsKept.refl (a : BitVec 28) : FlagsKept a a := fun _ h => h

theorem RecordKept.refl (a : Option ReelRecord) : RecordKept a a :=
  fun y h => ⟨y, h, rfl, rfl, rfl, rfl, rfl⟩

theorem RecordKept.trans {a b c : Option ReelRecord} (h : RecordKept a b) (k : RecordKept b c) :
    RecordKept a c := by
  intro y hy
  obtain ⟨x, hx, h1, h2, h3, h4, h5⟩ := k y hy
  obtain ⟨w, hw, g1, g2, g3, g4, g5⟩ := h x hx
  exact ⟨w, hw, h1.trans g1, h2.trans g2, h3.trans g3, h4.trans g4, h5.trans g5⟩

theorem RowKept.refl (a : Option OrderRow) : RowKept a a := by
  cases a <;> simp [RowKept]

theorem RowKept.trans {a b c : Option OrderRow} (h : RowKept a b) (k : RowKept b c) : RowKept a c := by
  cases a <;> cases b <;> cases c <;> simp_all [RowKept]

theorem StandKept.refl (x : StandContext) : StandKept x x :=
  ⟨id, id, id, fun _ h => h⟩

theorem StandKept.trans {x y z : StandContext} (h : StandKept x y) (k : StandKept y z) : StandKept x z :=
  ⟨k.1 ∘ h.1, k.2.1 ∘ h.2.1, h.2.2.1 ∘ k.2.2.1, fun e he => k.2.2.2 e (h.2.2.2 e he)⟩

theorem Keeps.refl (s : State) : Keeps s s :=
  ⟨rfl, rfl, rfl, rfl, rfl, rfl, rfl, rfl, rfl, .refl _, ⟨rfl, rfl, rfl, rfl⟩, fun _ => .refl _,
    fun _ => .refl _, fun _ => .refl _, id, id⟩

theorem Keeps.trans {s t u : State} (h : Keeps s t) (k : Keeps t u) : Keeps s u where
  now := k.now.trans h.now
  resetHeld := k.resetHeld.trans h.resetHeld
  lines := k.lines.trans h.lines
  allocStart := k.allocStart.trans h.allocStart
  settings := k.settings.trans h.settings
  pending := k.pending.trans h.pending
  address := k.address.trans h.address
  run := k.run.trans h.run
  answer := k.answer.trans h.answer
  flags := fun i hi => k.flags i (h.flags i hi)
  scan := ⟨k.scan.1.trans h.scan.1, k.scan.2.1.trans h.scan.2.1, k.scan.2.2.1.trans h.scan.2.2.1,
    k.scan.2.2.2.trans h.scan.2.2.2⟩
  rows := fun r => (h.rows r).trans (k.rows r)
  reels := fun i => (h.reels i).trans (k.reels i)
  stands := fun st => (h.stands st).trans (k.stands st)
  queues := k.queues ∘ h.queues
  tapes := k.tapes ∘ h.tapes

theorem ite_keeps {s t u : State} {c : Prop} [Decidable c] (h : Keeps s t) (k : Keeps s u) :
    Keeps s (if c then t else u) := by split <;> assumption

theorem ite_fst_keeps {α : Type} {s : State} {t u : State × α} {c : Prop} [Decidable c]
    (h : Keeps s t.1) (k : Keeps s u.1) : Keeps s (if c then t else u).1 := by split <;> assumption

/-- An operation that touches none of the kept parts. -/
theorem Keeps.of_same {s t : State} (h1 : t.now = s.now) (h2 : t.resetHeld = s.resetHeld)
    (h3 : t.lines = s.lines) (h4 : t.allocStart = s.allocStart) (h5 : t.settings = s.settings)
    (h6 : t.pending = s.pending) (h7 : t.port = s.port) (h8 : t.bus = s.bus) (h9 : t.rows = s.rows)
    (h10 : t.reels = s.reels) (h11 : t.stands = s.stands)
    (h12 : TapeCountsInRange s → TapeCountsInRange t) : Keeps s t := by
  refine ⟨h1, h2, h3, h4, h5, h6, ?_, ?_, ?_, ?_, ?_, ?_, ?_, ?_, ?_, h12⟩
  · rw [h7]
  · rw [h7]
  · rw [h7]
  · rw [h7]; exact .refl _
  · rw [h8]; exact ⟨rfl, rfl, rfl, rfl⟩
  · intro r; rw [h9]; exact .refl _
  · intro i; rw [h10]; exact .refl _
  · intro st; rw [h11]; exact .refl _
  · intro h; simpa [QueuesOk, h8] using h

/-! ## The setters -/

section Setters

variable {s t : State}

/-- New arm contexts whose tape counts are in range keep the counts in range. -/
theorem setArms_tapes {st : StandId} {x : PerArm ArmContext}
    (k : TapeCountsInRange t → ∀ arm, (armGet x arm).tapeCount ≤ 15) (h : TapeCountsInRange t) :
    TapeCountsInRange (setArms t st x) := by
  intro st' arm
  simp only [armContext, setArms_arms, vget_vset]
  split
  · exact k h arm
  · exact h st' arm

theorem setArms_keeps {st : StandId} {x : PerArm ArmContext} (h : Keeps s t)
    (k : TapeCountsInRange t → ∀ arm, (armGet x arm).tapeCount ≤ 15) : Keeps s (setArms t st x) :=
  h.trans (.of_same rfl rfl rfl rfl rfl rfl rfl rfl rfl rfl rfl (setArms_tapes k))

/-- A context replaced by one whose tape count is in range. -/
theorem setArmContext_keeps {st : StandId} {arm : Arm} {x : ArmContext} (h : Keeps s t)
    (k : x.tapeCount ≤ 15) : Keeps s (setArmContext t st arm x) := by
  refine setArms_keeps h fun ht y => ?_
  by_cases e : y = arm
  · subst e; simpa using k
  · rw [armGet_armSet_ne _ _ _ _ e]; exact ht st y

theorem setOutputs_keeps {st : StandId} {x : Outputs} (h : Keeps s t) :
    Keeps s (setOutputs t st x) := h.trans (.of_same rfl rfl rfl rfl rfl rfl rfl rfl rfl rfl rfl id)

theorem setVerify_keeps {st : StandId} {x : Option VerifyRun} (h : Keeps s t) :
    Keeps s (setVerify t st x) := h.trans (.of_same rfl rfl rfl rfl rfl rfl rfl rfl rfl rfl rfl id)

theorem setTracker_keeps {st : StandId} {x : Option Tracker} (h : Keeps s t) :
    Keeps s (setTracker t st x) := h.trans (.of_same rfl rfl rfl rfl rfl rfl rfl rfl rfl rfl rfl id)

theorem setSchedule_keeps {l : LineId} {x : List Entry} (h : Keeps s t) :
    Keeps s (setSchedule t l x) := h.trans (.of_same rfl rfl rfl rfl rfl rfl rfl rfl rfl rfl rfl id)

theorem setSequencer_keeps {st : StandId} {x : Option Sequencer} (h : Keeps s t) :
    Keeps s (setSequencer t st x) := h.trans (.of_same rfl rfl rfl rfl rfl rfl rfl rfl rfl rfl rfl id)

theorem setReel_keeps {i : SlotId} {x : Option ReelRecord} (h : Keeps s t)
    (k : RecordKept (vget t.reels i) x) : Keeps s (setReel t i x) := by
  refine h.trans ⟨rfl, rfl, rfl, rfl, rfl, rfl, rfl, rfl, rfl, .refl _, ⟨rfl, rfl, rfl, rfl⟩,
    fun _ => .refl _, fun j => ?_, fun _ => .refl _, id, id⟩
  simp only [setReel_reels, vget_vset]
  split
  · next e => subst e; exact k
  · exact .refl _

theorem setRow_keeps {r : RowId} {x : Option OrderRow} (h : Keeps s t)
    (k : RowKept (vget t.rows r) x) : Keeps s (setRow t r x) := by
  refine h.trans ⟨rfl, rfl, rfl, rfl, rfl, rfl, rfl, rfl, rfl, .refl _, ⟨rfl, rfl, rfl, rfl⟩,
    fun j => ?_, fun _ => .refl _, fun _ => .refl _, id, id⟩
  simp only [setRow_rows, vget_vset]
  split
  · next e => subst e; exact k
  · exact .refl _

theorem setStand_keeps {st : StandId} {x : StandContext} (h : Keeps s t)
    (k : StandKept (vget t.stands st) x) : Keeps s (setStand t st x) := by
  refine h.trans ⟨rfl, rfl, rfl, rfl, rfl, rfl, rfl, rfl, rfl, .refl _, ⟨rfl, rfl, rfl, rfl⟩,
    fun _ => .refl _, fun _ => .refl _, fun j => ?_, id, id⟩
  simp only [setStand_stands, vget_vset]
  split
  · next e => subst e; exact k
  · exact .refl _

theorem setBus_keeps {b : Bus} (h : Keeps s t) (k : SameScan t.bus b)
    (q : QueuesOk t → ∀ st, QueueOk (vget b.queues st)) : Keeps s (setBus t b) :=
  h.trans ⟨rfl, rfl, rfl, rfl, rfl, rfl, rfl, rfl, rfl, .refl _, k,
    fun _ => .refl _, fun _ => .refl _, fun _ => .refl _, q, id⟩

/-- One queue replaced by another that the law allows. -/
theorem vset_queuesOk {st : StandId} {q : List Request} (h : QueuesOk t)
    (k : QueueOk (vget t.bus.queues st) → QueueOk q) :
    ∀ x, QueueOk (vget (vset t.bus.queues st q) x) := by
  intro x
  rw [vget_vset]
  split
  · exact k (h st)
  · exact h x

end Setters

/-! ## Flags -/

section Ops

variable {s t : State}

theorem raiseBit_keeps {e : Bool} {bit : Nat} (h : Keeps s t) : Keeps s (raiseBit e bit t) := by
  unfold raiseBit
  split
  · refine h.trans ⟨rfl, rfl, rfl, rfl, rfl, rfl, rfl, rfl, rfl, fun i hi => ?_, ⟨rfl, rfl, rfl, rfl⟩,
      fun _ => .refl _, fun _ => .refl _, fun _ => .refl _, id, id⟩
    simp [hi]
  · exact h

theorem raiseStand_keeps {st : StandId} (h : Keeps s t) : Keeps s (raiseStand st t) := raiseBit_keeps h

theorem raiseRow_keeps {r : RowId} {st : StandId} (h : Keeps s t) : Keeps s (raiseRow r st t) :=
  raiseBit_keeps h

theorem raiseLine_keeps {l : LineId} (h : Keeps s t) : Keeps s (raiseLine l t) := raiseBit_keeps h

theorem writeOutcome_keeps {st : StandId} {o : LastOutcome} (h : Keeps s t) :
    Keeps s (writeOutcome st o t) := raiseStand_keeps (setStand_keeps h (StandKept.refl (vget t.stands st)))

/-! ## Look-ups -/

theorem findReel_some {n : Nat} {i : SlotId} (h : findReel s n = some i) :
    ∃ x, vget s.reels i = some x ∧ x.reel = n := by
  have := List.find?_some h
  cases hx : vget s.reels i with
  | none => simp [hx] at this
  | some x => exact ⟨x, rfl, by simpa [hx] using this⟩

theorem rowOfTag_some {n : Nat} {i : RowId} (h : rowOfTag s n = some i) :
    ∃ x, vget s.rows i = some x ∧ x.tag = n := by
  have := List.find?_some h
  cases hx : vget s.rows i with
  | none => simp [hx] at this
  | some x => exact ⟨x, rfl, by simpa [hx] using this⟩

/-- A change of a record that keeps its identity. -/
def KeepsRecord (f : ReelRecord → ReelRecord) : Prop :=
  ∀ r, (f r).reel = r.reel ∧ (f r).stand = r.stand ∧ (f r).grade = r.grade ∧ (f r).core = r.core ∧
    (f r).caliper = r.caliper

theorem map_recordKept {f : ReelRecord → ReelRecord} (hf : KeepsRecord f) (a : Option ReelRecord) :
    RecordKept a (a.map f) := by
  intro y hy
  cases a with
  | none => cases hy
  | some x =>
    cases hy
    exact ⟨x, rfl, hf x⟩

theorem some_recordKept {a : Option ReelRecord} {x y : ReelRecord} (h : a = some x)
    (k : y.reel = x.reel ∧ y.stand = x.stand ∧ y.grade = x.grade ∧ y.core = x.core ∧
      y.caliper = x.caliper) : RecordKept a (some y) := by
  intro z hz
  cases hz
  exact ⟨x, h, k⟩

theorem none_recordKept (a : Option ReelRecord) : RecordKept a none := fun _ h => by cases h

theorem modReel_keeps {n : Nat} {f : ReelRecord → ReelRecord} (h : Keeps s t) (hf : KeepsRecord f) :
    Keeps s (modReel n f t) := by
  unfold modReel
  split
  · exact setReel_keeps h (map_recordKept hf _)
  · exact h

/-! ## The request queues -/

theorem QueueOk.filter {q : List Request} (h : QueueOk q) (p : Request → Bool) : QueueOk (q.filter p) :=
  ⟨fun r hr => h.1 r (List.mem_of_mem_filter hr), h.2.filter _⟩

theorem QueueOk.nil : QueueOk [] := ⟨by simp, List.Pairwise.nil⟩

theorem QueueOk.tail {r : Request} {q : List Request} (h : QueueOk (r :: q)) : QueueOk q :=
  ⟨fun x hx => h.1 x (List.mem_cons_of_mem _ hx), (List.pairwise_cons.1 h.2).2⟩

theorem sameRequest_comm (x y : Request) : sameRequest x y = sameRequest y x := by
  simp only [sameRequest]
  rw [BEq.comm (a := x.arm), BEq.comm (a := x.kind), Bool.and_comm (isDrive x.kind)]

theorem sameRequest_trans {x y z : Request} (h : sameRequest x y = true) (k : sameRequest x z = true) :
    sameRequest y z = true := by
  obtain ⟨kx, ax, cx, nx⟩ := x
  obtain ⟨ky, ay, cy, ny⟩ := y
  obtain ⟨kz, az, cz, nz⟩ := z
  simp only [sameRequest, Bool.and_eq_true, beq_iff_eq, Bool.or_eq_true] at *
  refine ⟨h.1.symm.trans k.1, ?_⟩
  rcases h.2 with h2 | h2 <;> rcases k.2 with k2 | k2
  · exact .inl (h2.symm.trans k2)
  · subst h2; exact .inr k2
  · subst k2; exact .inr ⟨h2.2, h2.1⟩
  · exact .inr ⟨h2.2, k2.2⟩

/-- A request placed in a lawful queue leaves a lawful queue (R138). -/
theorem placeRequest_ok {r : Request} {q : List Request} (hr : wellArmed r = true) (h : QueueOk q) :
    QueueOk (placeRequest r q) := by
  have single : QueueOk [r] := ⟨by simpa using hr, List.pairwise_singleton _ _⟩
  have append : ∀ q', QueueOk q' → (∀ x ∈ q', sameRequest x r = false) → QueueOk (q' ++ [r]) := by
    intro q' h' k
    refine ⟨fun x hx => ?_, List.pairwise_append.2 ⟨h'.2, single.2, ?_⟩⟩
    · rcases List.mem_append.1 hx with hx | hx
      · exact h'.1 x hx
      · exact single.1 x hx
    · intro x hx y hy
      cases List.mem_singleton.1 hy
      exact k x hx
  unfold placeRequest
  split
  · apply append _ (h.filter _)
    intro x hx
    rw [sameRequest_comm]
    simpa using (List.mem_filter.1 hx).2
  · split
    · refine ⟨fun x hx => ?_, ?_⟩
      · obtain ⟨y, hy, e⟩ := List.mem_map.1 hx
        split at e
        · subst e; exact hr
        · subst e; exact h.1 _ hy
      · rw [List.pairwise_map]
        refine h.2.imp ?_
        intro x y hxy
        split <;> split
        · next hx hy => exact absurd (sameRequest_trans hx hy) (by simp [hxy])
        · next hx hy => simpa using hy
        · next hx hy => rw [sameRequest_comm]; simpa using hx
        · exact hxy
    · next hq =>
      apply append _ h
      intro x hx
      rw [sameRequest_comm]
      simp only [List.any_eq_true, not_exists, not_and, Bool.not_eq_true] at hq
      exact hq x hx

theorem queueRequest_keeps {st : StandId} {r : Request} (h : Keeps s t) (hr : wellArmed r = true) :
    Keeps s (queueRequest st r t) :=
  setBus_keeps h ⟨rfl, rfl, rfl, rfl⟩ fun q => vset_queuesOk q (placeRequest_ok hr)

theorem withdrawVerify_keeps {st : StandId} {arm : Arm} (h : Keeps s t) :
    Keeps s (withdrawVerify st arm t) :=
  setBus_keeps h ⟨rfl, rfl, rfl, rfl⟩ fun q => vset_queuesOk q fun k => k.filter _

theorem withdrawGauge_keeps {st : StandId} {arm : Arm} (h : Keeps s t) :
    Keeps s (withdrawGauge st arm t) :=
  setBus_keeps h ⟨rfl, rfl, rfl, rfl⟩ fun q => vset_queuesOk q fun k => k.filter _

theorem openRead_keeps {st : StandId} {k : ReadKind} {n : Option Nat} (h : Keeps s t) :
    Keeps s (openRead st k n t) := setBus_keeps h ⟨rfl, rfl, rfl, rfl⟩ id

theorem closeRead_keeps {st : StandId} {k : ReadKind} (h : Keeps s t) :
    Keeps s (closeRead st k t) := setBus_keeps h ⟨rfl, rfl, rfl, rfl⟩ id

theorem setIndexRecord_keeps {st : StandId} {x : Option Nat} (h : Keeps s t) :
    Keeps s (setIndexRecord st x t) := setBus_keeps h ⟨rfl, rfl, rfl, rfl⟩ id

theorem setLapses_keeps {st : StandId} {n : Nat} (h : Keeps s t) : Keeps s (setLapses st n t) :=
  setBus_keeps h ⟨rfl, rfl, rfl, rfl⟩ id

theorem freePair_keeps (h : Keeps s t) : Keeps s (freePair t) :=
  setBus_keeps h ⟨rfl, rfl, rfl, rfl⟩ id

theorem endGrant_keeps {st : StandId} (h : Keeps s t) : Keeps s (endGrant st t) :=
  freePair_keeps (setLapses_keeps h)

theorem clearStandBus_keeps {st : StandId} (h : Keeps s t) : Keeps s (clearStandBus st t) :=
  setBus_keeps h ⟨rfl, rfl, rfl, rfl⟩ fun q => vset_queuesOk q fun _ => QueueOk.nil

theorem restartBus_keeps (h : Keeps s t) : Keeps s (restartBus t) :=
  setBus_keeps h ⟨rfl, rfl, rfl, rfl⟩ fun _ st => by simpa using QueueOk.nil

theorem requestTurn_keeps (h : Keeps s t) : Keeps s (requestTurn t) := by
  unfold requestTurn
  split
  · exact h
  · split
    · exact h
    · next st _ r rest e =>
      exact setBus_keeps h ⟨rfl, rfl, rfl, rfl⟩ fun q => vset_queuesOk q fun k => (e ▸ k).tail

theorem grantTurn_keeps (h : Keeps s t) : Keeps s (grantTurn t) := by
  unfold grantTurn
  split
  · exact h
  · exact setBus_keeps h ⟨rfl, rfl, rfl, rfl⟩ id

theorem arbitrate_keeps (h : Keeps s t) : Keeps s (arbitrate t) := by
  unfold arbitrate
  split
  · split
    · exact grantTurn_keeps h
    · split
      · exact requestTurn_keeps h
      · split
        · exact grantTurn_keeps h
        · exact h
  · exact h

/-! ## Verification -/

theorem startRun_keeps {st : StandId} {n : Nat} {arm : Arm} (h : Keeps s t) :
    Keeps s (startRun st n arm t) := queueRequest_keeps (setVerify_keeps h) rfl

theorem startIfDue_keeps {r : ReelRecord} (h : Keeps s t) : Keeps s (startIfDue r t) := by
  unfold startIfDue
  split
  · exact startRun_keeps h
  · exact h

theorem startAtSplice_keeps {st : StandId} (h : Keeps s t) : Keeps s (startAtSplice st t) := by
  unfold startAtSplice
  split
  · split
    · exact startIfDue_keeps h
    · exact h
  · exact h

theorem endRun_keeps {st : StandId} (h : Keeps s t) : Keeps s (endRun st t) := by
  unfold endRun
  split
  · exact withdrawVerify_keeps (setVerify_keeps h)
  · exact h

theorem verifyMark_keeps {st : StandId} {arm : Arm} {n : Option Nat} (h : Keeps s t) :
    Keeps s (verifyMark st arm n t) := by
  unfold verifyMark
  split
  · split
    · exact setVerify_keeps h
    · exact h
  · exact h

theorem repeatRun_keeps {st : StandId} {n : Nat} (h : Keeps s t) : Keeps s (repeatRun st n t) := by
  unfold repeatRun
  dsimp only
  split
  · exact startIfDue_keeps (endRun_keeps h)
  · exact endRun_keeps h

theorem withResult_keepsRecord (v : VerifyResult) : KeepsRecord (withResult v) := by
  intro r; unfold withResult; dsimp only; split <;> exact ⟨rfl, rfl, rfl, rfl, rfl⟩

theorem finishRun_keeps {st : StandId} {n : Nat} {v : VerifyResult} (h : Keeps s t) :
    Keeps s (finishRun st n v t) :=
  raiseStand_keeps (modReel_keeps (endRun_keeps h) (withResult_keepsRecord v))

theorem abortReturn_keeps {row : OrderRow} {why : Option OrderReason} (h : Keeps s t) :
    Keeps s (abortReturn row why t) := by
  unfold abortReturn
  split
  · split
    · next e =>
      split
      · exact startIfDue_keeps (setReel_keeps h (some_recordKept e ⟨rfl, rfl, rfl, rfl, rfl⟩))
      · exact h
    · exact h
  · exact h

/-! ## Orders and schedules -/

theorem untagReel_keeps {row : OrderRow} {n : Nat} (h : Keeps s t) : Keeps s (untagReel row n t) := by
  unfold untagReel
  split
  · refine setReel_keeps h (map_recordKept (fun r => ?_) _)
    exact ⟨rfl, rfl, rfl, rfl, rfl⟩
  · exact h

theorem untagOrder_keeps {row : OrderRow} (h : Keeps s t) : Keeps s (untagOrder row t) :=
  untagReel_keeps (untagReel_keeps h)

theorem removeEntry_keeps {l : LineId} {r : RowId} (h : Keeps s t) : Keeps s (removeEntry l r t) :=
  setSchedule_keeps h

theorem freezeEntry_keeps {l : LineId} {r : RowId} (h : Keeps s t) : Keeps s (freezeEntry l r t) :=
  setSchedule_keeps h

theorem coastUnlessLost_keeps {row : OrderRow} {b : Bool} (h : Keeps s t) :
    Keeps s (coastUnlessLost row b t) := by
  unfold coastUnlessLost
  split
  · exact h
  · exact queueRequest_keeps h rfl

/-- A change of an open row that keeps what a row keeps. -/
theorem open_rowKept {a : Option OrderRow} {x y : OrderRow} (h : a = some x) (ho : x.state.isOpen = true)
    (k : y.tag = x.tag ∧ y.stand = x.stand ∧ y.expiring = x.expiring ∧ y.newReel = x.newReel ∧
      y.newArm = x.newArm) : RowKept a (some y) := by
  subst h
  exact ⟨k.1, k.2.1, k.2.2.1, k.2.2.2.1, k.2.2.2.2, fun hc => by simp [ho] at hc⟩

theorem waiting_isOpen {x : OrderState} (h : x.waiting = true) : x.isOpen = true := by
  cases x <;> simp_all [OrderState.waiting, OrderState.isOpen]

theorem committed_isOpen {x : OrderState} (h : x.committed = true) : x.isOpen = true := by
  cases x <;> simp_all [OrderState.committed, OrderState.isOpen]

theorem closeRow_keeps {r : RowId} {o : OrderState} {why : Option OrderReason} {d : Option DoneResults}
    {b : Bool} (h : Keeps s t) : Keeps s (closeRow r o why d b t).1 := by
  unfold closeRow
  split
  · exact h
  · next row e =>
    dsimp only
    split
    · exact h
    · next ho =>
      have h1 : Keeps s (setRow t r (some { row with
          state := o, reason := why, results := d, place := none, past := false })) :=
        setRow_keeps h (open_rowKept e (by simpa using ho) ⟨rfl, rfl, rfl, rfl, rfl⟩)
      have h4 : ∀ u, Keeps s u → Keeps s (untagOrder row (if row.state.waiting = true then u
          else setSequencer u row.stand none)) := fun u hu => by
        apply untagOrder_keeps; split
        · exact hu
        · exact setSequencer_keeps hu
      have h2 : ∀ u, Keeps s u → Keeps s (if abortable t row = true then
          abortReturn row why (coastUnlessLost row b u) else u) := fun u hu => by
        split
        · exact abortReturn_keeps (coastUnlessLost_keeps hu)
        · exact hu
      exact ite_fst_keeps (raiseRow_keeps (removeEntry_keeps (h4 _ (h2 _ h1))))
        (raiseRow_keeps (h4 _ (h2 _ h1)))

theorem commitReel_keeps {row : OrderRow} (h : Keeps s t) : Keeps s (commitReel row t) := by
  unfold commitReel
  split
  · refine setReel_keeps h (map_recordKept (fun r => ?_) _)
    split <;> exact ⟨rfl, rfl, rfl, rfl, rfl⟩
  · exact h

theorem commitReel_rows (row : OrderRow) (t : State) : (commitReel row t).rows = t.rows := by
  unfold commitReel; split <;> rfl

theorem commitRow_keeps {r : RowId} {row : OrderRow} {p : Placement} {n : Nat} {b : Bool} (h : Keeps s t)
    (e : vget t.rows r = some row) (ho : row.state.isOpen = true) :
    Keeps s (commitRow r row p n b t).1 := by
  refine raiseRow_keeps (queueRequest_keeps (setSequencer_keeps (setRow_keeps
    (freezeEntry_keeps (commitReel_keeps h)) (open_rowKept (x := row) ?_ ho ⟨rfl, rfl, rfl, rfl, rfl⟩))) rfl)
  simpa [freezeEntry, commitReel_rows] using e

theorem commitTest_keeps {r : RowId} (h : Keeps s t) : Keeps s (commitTest r t).1 := by
  unfold commitTest
  split
  · exact h
  · next row e =>
    split
    · next hw _ _ =>
      have ho := waiting_isOpen hw
      dsimp only
      split
      · split
        · exact closeRow_keeps h
        · have k : Keeps s (setRow t r (some { row with state := .held, past := false })) :=
            setRow_keeps h (open_rowKept e ho ⟨rfl, rfl, rfl, rfl, rfl⟩)
          dsimp only
          split
          · exact k
          · exact raiseRow_keeps k
      · split
        · split
          · exact closeRow_keeps h
          · exact setRow_keeps h (open_rowKept e ho ⟨rfl, rfl, rfl, rfl, rfl⟩)
        · exact commitRow_keeps h e ho
    · exact h

theorem latestReport_keeps {r : RowId} (h : Keeps s t) : Keeps s (latestReport r t).1 := by
  unfold latestReport
  split
  · exact h
  · split
    · exact closeRow_keeps h
    · exact closeRow_keeps h
    · exact commitTest_keeps h
    · exact h

theorem placedRow_identity (pos : Pos) (e : Entry) (row : OrderRow) :
    (placedRow pos e row).tag = row.tag ∧ (placedRow pos e row).stand = row.stand ∧
      (placedRow pos e row).expiring = row.expiring ∧ (placedRow pos e row).newReel = row.newReel ∧
      (placedRow pos e row).newArm = row.newArm := by
  unfold placedRow; dsimp only; split <;> exact ⟨rfl, rfl, rfl, rfl, rfl⟩

theorem handOff_keeps {l : LineId} {acc : State × Nat} {e : Entry} (h : Keeps s acc.1) :
    Keeps s (handOff l acc e).1 := by
  obtain ⟨t, n⟩ := acc
  unfold handOff
  dsimp only at h ⊢
  split
  · exact h
  · next row he =>
    split
    · exact h
    · next hw =>
      have k : Keeps s (setRow t e.row (some (placedRow (position t l) e row))) :=
        setRow_keeps h (open_rowKept he (waiting_isOpen (by simpa using hw)) (placedRow_identity _ _ _))
      have k2 : Keeps s (if (row.state == .held && (placedRow (position t l) e row).state == .armed) = true
          then raiseRow e.row row.stand (setRow t e.row (some (placedRow (position t l) e row)))
          else setRow t e.row (some (placedRow (position t l) e row))) := by
        split
        · exact raiseRow_keeps k
        · exact k
      split
      · exact commitTest_keeps k2
      · split
        · exact latestReport_keeps k2
        · exact k2

theorem handOff_foldl_keeps {l : LineId} (es : List Entry) {acc : State × Nat} (h : Keeps s acc.1) :
    Keeps s (es.foldl (handOff l) acc).1 := by
  induction es generalizing acc with
  | nil => exact h
  | cons e es ih => exact ih (handOff_keeps h)

theorem evalOnce_keeps {l : LineId} (h : Keeps s t) : Keeps s (evalOnce l t).1 := by
  unfold evalOnce
  dsimp only
  apply handOff_foldl_keeps
  dsimp only
  split
  · exact raiseLine_keeps (setSchedule_keeps h)
  · exact setSchedule_keeps h

theorem evalRounds_keeps {l : LineId} (fuel due : Nat) (h : Keeps s t) :
    Keeps s (evalRounds fuel due l t) := by
  induction fuel generalizing due t with
  | zero => exact h
  | succ n ih =>
    cases due with
    | zero => exact h
    | succ d => exact ih _ (evalOnce_keeps h)

theorem settle_keeps {l : LineId} {n : Nat} (h : Keeps s t) : Keeps s (settle l n t) :=
  evalRounds_keeps _ _ h

theorem evaluate_keeps {l : LineId} (h : Keeps s t) : Keeps s (evaluate l t) := settle_keeps h

theorem closeOrder_keeps {r : RowId} {o : OrderState} {why : OrderReason} {b : Bool} (h : Keeps s t) :
    Keeps s (closeOrder r o why b t) := settle_keeps (closeRow_keeps h)

theorem testOrder_keeps {r : RowId} (h : Keeps s t) : Keeps s (testOrder r t) :=
  settle_keeps (commitTest_keeps h)

theorem joinSchedule_keeps {r : RowId} {st : StandId} (h : Keeps s t) :
    Keeps s (joinSchedule r st t) := by
  unfold joinSchedule
  dsimp only
  split
  · exact evaluate_keeps (setSchedule_keeps h)
  · exact evaluate_keeps h

theorem handPositions_keeps {st : StandId} (h : Keeps s t) : Keeps s (handPositions st t) := by
  unfold handPositions
  dsimp only
  split
  · exact evaluate_keeps h
  · exact h

/-! ## Trackers -/

theorem modTracker_keeps {st : StandId} {f : Tracker → Tracker} (h : Keeps s t) :
    Keeps s (modTracker st f t) := setTracker_keeps h

theorem runoutCheck_keeps {st : StandId} (h : Keeps s t) : Keeps s (runoutCheck st t) := by
  unfold runoutCheck
  split
  · exact h
  · next x _ =>
    split
    · have k : Keeps s (modReel x.reel (fun r => { r with runout := true, remaining := some 0 })
          (setTracker t st (some { x with runoutHeld := true }))) :=
        modReel_keeps (setTracker_keeps h) fun _ => ⟨rfl, rfl, rfl, rfl, rfl⟩
      dsimp only
      split
      · exact k
      · exact raiseStand_keeps k
    · exact h

theorem finishSample_keeps {st : StandId} {x : Tracker} {c : Nat} {p : Pos} (h : Keeps s t) :
    Keeps s (finishSample st x c p t) := by
  unfold finishSample
  split
  · exact h
  · dsimp only
    apply handPositions_keeps
    split
    · exact raiseStand_keeps (modReel_keeps (setTracker_keeps h) fun _ => ⟨rfl, rfl, rfl, rfl, rfl⟩)
    · exact modReel_keeps (setTracker_keeps h) fun _ => ⟨rfl, rfl, rfl, rfl, rfl⟩

theorem acceptSample_keeps {st : StandId} {x : Tracker} {c : Nat} {p : Pos} (h : Keeps s t) :
    Keeps s (acceptSample st x c p t) := finishSample_keeps h

theorem rejectSample_keeps {st : StandId} {x : Tracker} (h : Keeps s t) :
    Keeps s (rejectSample st x t) := by
  unfold rejectSample
  split
  · exact setTracker_keeps h
  · exact raiseStand_keeps (modReel_keeps (setTracker_keeps h) fun _ => ⟨rfl, rfl, rfl, rfl, rfl⟩)

theorem recover_keeps {st : StandId} {x : Tracker} {k c : Nat} {p : Pos} (h : Keeps s t) :
    Keeps s (recover st x k c p t) :=
  finishSample_keeps (modReel_keeps h fun _ => ⟨rfl, rfl, rfl, rfl, rfl⟩)

theorem recoverySample_keeps {st : StandId} {x : Tracker} {c : Nat} {p : Pos} (h : Keeps s t) :
    Keeps s (recoverySample st x c p t) := by
  unfold recoverySample
  split
  · exact h
  · split
    · exact runoutCheck_keeps (setTracker_keeps h)
    · split
      · exact runoutCheck_keeps (setTracker_keeps h)
      · split
        · exact recover_keeps h
        · exact runoutCheck_keeps (setTracker_keeps h)

theorem trackerInterval_keeps {st : StandId} {arm : Arm} {w : Nat} {p : Pos} (h : Keeps s t) :
    Keeps s (trackerInterval st arm w p t) := by
  unfold trackerInterval
  split
  · exact h
  · have k : ∀ x : Tracker, Keeps s (match reelOf t x.reel with
        | none => t
        | some r => if plausible x r.core w = true then acceptSample st x w p t
          else runoutCheck st (rejectSample st x t)) := fun x => by
      split
      · exact h
      · split
        · exact acceptSample_keeps h
        · exact runoutCheck_keeps (rejectSample_keeps h)
    split
    · split
      · exact runoutCheck_keeps h
      · exact recoverySample_keeps h
      · exact k _
      · exact k _
      · exact k _
    · exact h

theorem holdTest_keeps {st : StandId} {v n : Nat} (h : Keeps s t) : Keeps s (holdTest st v n t) := by
  unfold holdTest
  split
  · exact h
  · split
    · exact h
    · split
      · exact h
      · exact setTracker_keeps h
    · split
      · exact setTracker_keeps h
      · exact h
    · split
      · exact setTracker_keeps h
      · exact h
    · split
      · exact modReel_keeps (setTracker_keeps h) fun _ => ⟨rfl, rfl, rfl, rfl, rfl⟩
      · exact h

theorem trackerWindowEnd_keeps {st : StandId} {v n : Nat} (h : Keeps s t) :
    Keeps s (trackerWindowEnd st v n t) := runoutCheck_keeps (holdTest_keeps h)

theorem startTracker_keeps {st : StandId} {n : Nat} {arm : Arm} {c : Option Nat} (h : Keeps s t) :
    Keeps s (startTracker st n arm c t) := setTracker_keeps h

theorem stopTracker_keeps {st : StandId} (h : Keeps s t) : Keeps s (stopTracker st t) :=
  setTracker_keeps h

/-! ## Sequencers -/

theorem modSequencer_keeps {st : StandId} {f : Sequencer → Sequencer} (h : Keeps s t) :
    Keeps s (modSequencer st f t) := setSequencer_keeps h

theorem modRow_keeps {r : RowId} {f : OrderRow → OrderRow} (h : Keeps s t)
    (hf : ∀ x, (f x).tag = x.tag ∧ (f x).stand = x.stand ∧ (f x).expiring = x.expiring ∧
      (f x).newReel = x.newReel ∧ (f x).newArm = x.newArm) : Keeps s (modRow r f t) := by
  unfold modRow
  split
  · next row e =>
    split
    · next hc => exact setRow_keeps h (open_rowKept e (committed_isOpen hc) (hf row))
    · exact h
  · exact h

theorem writeRowState_keeps {r : RowId} {st : StandId} {x : OrderState} (h : Keeps s t) :
    Keeps s (writeRowState r st x t) :=
  raiseRow_keeps (modRow_keeps h fun _ => ⟨rfl, rfl, rfl, rfl, rfl⟩)

theorem sequencerClose_keeps {q : Sequencer} {why : OrderReason} (h : Keeps s t) :
    Keeps s (sequencerClose q why t) := closeOrder_keeps h

theorem accelInterval_keeps {st : StandId} {q : Sequencer} {w : Nat} (h : Keeps s t) :
    Keeps s (accelInterval st q w t) := by
  unfold accelInterval
  split
  · exact h
  · split
    · split
      · exact writeRowState_keeps (setSequencer_keeps h)
      · exact setSequencer_keeps h
    · exact setSequencer_keeps h

theorem retryMatch_keeps {st : StandId} {q : Sequencer} (h : Keeps s t) :
    Keeps s (retryMatch st q t) := by
  unfold retryMatch
  have k := writeRowState_keeps (r := q.row) (st := st) (x := .accelerating)
    (setSequencer_keeps (st := st) (x := some { q with
      phase := .accelerating, accepted := false, inRun := false, outRun := false, missRun := false })
      (queueRequest_keeps (st := st) (r := accelRequest q.newArm q.circumference)
        (modRow_keeps (r := q.row) (f := fun row => { row with
          commitment := row.commitment.map fun c => { c with retries := c.retries + 1 } }) h
          fun _ => ⟨rfl, rfl, rfl, rfl, rfl⟩) rfl))
  dsimp only
  split
  · exact sequencerClose_keeps k
  · exact k

theorem matchLoss_keeps {st : StandId} {q : Sequencer} (h : Keeps s t) :
    Keeps s (matchLoss st q t) := by
  unfold matchLoss
  split
  · exact h
  · split
    · exact retryMatch_keeps h
    · exact sequencerClose_keeps h

theorem tapeRevolution_keeps {st : StandId} {q : Sequencer} {n : Nat} (h : Keeps s t) :
    Keeps s (tapeRevolution st q n t) := by
  unfold tapeRevolution
  split
  · split
    · exact sequencerClose_keeps h
    · exact setSequencer_keeps h
  · exact setSequencer_keeps h

theorem matchedInterval_keeps {st : StandId} {q : Sequencer} {w n : Nat} (h : Keeps s t) :
    Keeps s (matchedInterval st q w n t) := by
  unfold matchedInterval
  split
  · exact tapeRevolution_keeps h
  · split
    · exact matchLoss_keeps h
    · exact tapeRevolution_keeps h

theorem sequencerInterval_keeps {st : StandId} {arm : Arm} {w n : Nat} (h : Keeps s t) :
    Keeps s (sequencerInterval st arm w n t) := by
  unfold sequencerInterval
  split
  · exact h
  · split
    · split
      · exact accelInterval_keeps h
      · exact matchedInterval_keeps h
      · exact h
      · exact h
    · exact h

theorem sequencerWindowEnd_keeps {st : StandId} (h : Keeps s t) :
    Keeps s (sequencerWindowEnd st t) := by
  unfold sequencerWindowEnd
  split
  · exact h
  · split
    · split
      · exact sequencerClose_keeps h
      · exact h
    · split
      · exact sequencerClose_keeps h
      · exact h
    · exact h
    · exact h

theorem fireOutput_keeps {st : StandId} {o : OutputLine} {w : Nat} (h : Keeps s t) :
    Keeps s (fireOutput st o w t) := by
  cases o <;> exact setOutputs_keeps h

theorem expireOld_keeps {row : OrderRow} {n : Option Nat} (h : Keeps s t) :
    Keeps s (expireOld row n t) := by
  unfold expireOld
  split
  · refine setReel_keeps h (map_recordKept (fun r => ?_) _)
    split <;> exact ⟨rfl, rfl, rfl, rfl, rfl⟩
  · exact h

theorem runNew_keeps {st : StandId} {row : OrderRow} {arm : Arm} {c : Option Nat} (h : Keeps s t) :
    Keeps s (runNew st row arm c t) := by
  unfold runNew
  split
  · refine startTracker_keeps (setReel_keeps h (map_recordKept (fun r => ?_) _))
    split <;> exact ⟨rfl, rfl, rfl, rfl, rfl⟩
  · exact stopTracker_keeps h

theorem queueBraking_keeps {st : StandId} {q : Sequencer} (h : Keeps s t) :
    Keeps s (queueBraking st q t) := by
  unfold queueBraking
  refine queueRequest_keeps ?_ rfl
  split
  · exact queueRequest_keeps h rfl
  · exact h

theorem fireKnife_keeps {st : StandId} (h : Keeps s t) : Keeps s (fireKnife st t) := by
  unfold fireKnife
  split
  · exact h
  · split
    · exact h
    · split
      · dsimp only
        refine ite_keeps ?_ (queueBraking_keeps ?_) <;>
          exact setSequencer_keeps (writeRowState_keeps (ite_keeps
            (evaluate_keeps (removeEntry_keeps (runNew_keeps (expireOld_keeps (fireOutput_keeps h)))))
            (removeEntry_keeps (runNew_keeps (expireOld_keeps (fireOutput_keeps h))))))
      · exact h

theorem firePaste_keeps {st : StandId} (h : Keeps s t) : Keeps s (firePaste st t) := by
  unfold firePaste
  split
  · exact h
  · split
    · dsimp only
      split
      · exact fireKnife_keeps (setSequencer_keeps (fireOutput_keeps h))
      · exact setSequencer_keeps (fireOutput_keeps h)
    · exact h

theorem startPasting_keeps {st : StandId} {q : Sequencer} {w : Nat} {p : Pos} {c : Commitment}
    (h : Keeps s t) : Keeps s (startPasting st q w p c t) := by
  unfold startPasting
  dsimp only
  split
  · exact firePaste_keeps (writeRowState_keeps (setSequencer_keeps
      (modRow_keeps h fun _ => ⟨rfl, rfl, rfl, rfl, rfl⟩)))
  · exact writeRowState_keeps (setSequencer_keeps (modRow_keeps h fun _ => ⟨rfl, rfl, rfl, rfl, rfl⟩))

theorem sequencerTape_keeps {st : StandId} {arm : Arm} {p : Pos} (h : Keeps s t) :
    Keeps s (sequencerTape st arm p t) := by
  unfold sequencerTape
  split
  · exact h
  · split
    · split
      · split
        · exact startPasting_keeps h
        · exact h
      · exact h
    · exact h

theorem tryCloseDone_keeps {st : StandId} (h : Keeps s t) : Keeps s (tryCloseDone st t) := by
  unfold tryCloseDone
  split
  · exact h
  · split
    · split
      · exact closeRow_keeps h
      · exact h
    · exact h

theorem endRetract_keeps {st : StandId} (h : Keeps s t) : Keeps s (endRetract st t) :=
  tryCloseDone_keeps (modSequencer_keeps h)

theorem endRetractWait_keeps {st : StandId} (h : Keeps s t) : Keeps s (endRetractWait st t) :=
  ite_keeps (endRetract_keeps (writeOutcome_keeps h)) (modSequencer_keeps h)

/-! ## Stand conditions -/

theorem modStand_keeps {st : StandId} {f : StandContext → StandContext} (h : Keeps s t)
    (hf : StandKept (vget t.stands st) (f (vget t.stands st))) : Keeps s (modStand st f t) :=
  setStand_keeps h hf

theorem addError_holds (e f : HardError) (x : HardErrors) (h : holdsError x f = true) :
    holdsError (addError e x) f = true := by
  cases e <;> cases f <;> first | exact h | rfl

theorem markFaultAfterPaste_keeps {st : StandId} (h : Keeps s t) :
    Keeps s (markFaultAfterPaste st t) := modSequencer_keeps h

theorem faultOrder_keeps {st : StandId} {why : OrderReason} (h : Keeps s t) :
    Keeps s (faultOrder st why t) := by
  unfold faultOrder
  split
  · exact h
  · split
    · exact h
    · split
      · exact closeOrder_keeps h
      · exact closeOrder_keeps h
      · exact closeOrder_keeps h
      · exact closeOrder_keeps h
      · split
        · exact markFaultAfterPaste_keeps h
        · exact closeOrder_keeps h
      · exact markFaultAfterPaste_keeps h
      · exact h
      · exact h
      · exact h
      · exact h

/-- Only an ONLINE stand leaves service. -/
theorem leaveService_keeps {st : StandId} {c : Condition} {why : OrderReason} (h : Keeps s t)
    (ho : (vget t.stands st).condition = .online) (hc : c ≠ .offline) :
    Keeps s (leaveService st c why t) := by
  refine faultOrder_keeps (endRun_keeps (raiseStand_keeps (modStand_keeps h ?_)))
  exact ⟨fun k => by simp [ho] at k, fun k => by simp [ho] at k, fun k => absurd k hc, fun _ k => k⟩

theorem takeHardError_keeps {st : StandId} {e : HardError} (h : Keeps s t) :
    Keeps s (takeHardError st e t) := by
  have k : ∀ x : StandContext, vget t.stands st = x →
      Keeps s (setStand t st { x with errors := addError e x.errors }) := fun x hx =>
    setStand_keeps h (hx ▸ ⟨id, id, id, fun f hf => addError_holds e f _ hf⟩)
  unfold takeHardError
  dsimp only
  split
  · exact h
  · next ho => exact leaveService_keeps (k _ rfl) (by simpa using ho) (by simp)
  · split
    · exact h
    · exact raiseStand_keeps (k _ rfl)
  · split
    · exact h
    · exact raiseStand_keeps (k _ rfl)

/-- Only an OFFLINE or ONLINE stand goes ONLINE. -/
theorem goOnline_keeps {st : StandId} {r : SlotReading} (h : Keeps s t)
    (hc : (vget t.stands st).condition = .offline) : Keeps s (goOnline st r t) := by
  refine raiseStand_keeps (queueRequest_keeps (modStand_keeps h ?_) rfl)
  exact ⟨fun k => by simp [hc] at k, fun k => by simp [hc] at k, fun k => by simp at k, fun _ k => k⟩

theorem readPresent_keeps {st : StandId} {r : SlotReading} (h : Keeps s t) :
    Keeps s (readPresent st r t) := by
  have k : ∀ n, Keeps s (setStand t st { vget t.stands st with misses := n }) := fun n =>
    setStand_keeps h ⟨id, id, id, fun _ x => x⟩
  unfold readPresent
  dsimp only
  split
  · exact k 0
  · split
    · exact k 0
    · split
      · exact k _
      · exact takeHardError_keeps (k 0)

theorem readUnsafe_keeps {st : StandId} {r : SlotReading} (h : Keeps s t) :
    Keeps s (readUnsafe st r t) := by
  unfold readUnsafe
  split
  · exact takeHardError_keeps h
  · exact h

theorem readStopHeld_keeps {st : StandId} {r : SlotReading} (h : Keeps s t) :
    Keeps s (readStopHeld st r t) := by
  unfold readStopHeld
  dsimp only
  split
  · split
    · split
      · exact h
      · exact setStand_keeps h ⟨id, id, id, fun _ x => x⟩
    · exact setStand_keeps h ⟨id, id, id, fun _ x => x⟩
  · exact h

theorem takeReading_keeps {st : StandId} {r : SlotReading} (h : Keeps s t) :
    Keeps s (takeReading st r t) := by
  unfold takeReading
  split
  · next hc =>
    split
    · exact goOnline_keeps h (by simpa using hc)
    · exact h
  · exact readStopHeld_keeps (readUnsafe_keeps (readPresent_keeps h))

/-! ## Arm reports, maps -/

theorem endRunOf_keeps {st : StandId} {n : Nat} (h : Keeps s t) : Keeps s (endRunOf st n t) := by
  unfold endRunOf
  split
  · exact endRun_keeps h
  · exact h

theorem newReelRemoved_keeps {tag : Option Nat} (h : Keeps s t) : Keeps s (newReelRemoved tag t) := by
  unfold newReelRemoved
  split
  · exact closeOrder_keeps h
  · exact h

theorem withdrawGauge_reels (st : StandId) (arm : Arm) (t : State) :
    (withdrawGauge st arm t).reels = t.reels := rfl

theorem reelEmptied_keeps {st : StandId} {arm : Arm} (h : Keeps s t) :
    Keeps s (reelEmptied st arm t).1 := by
  have k : ∀ i, Keeps s (setReel (withdrawGauge st arm t) i none) := fun i =>
    setReel_keeps (withdrawGauge_keeps h) (none_recordKept _)
  unfold reelEmptied
  dsimp only
  split
  · exact withdrawGauge_keeps h
  · next i _ =>
    split
    · exact withdrawGauge_keeps h
    · next r e =>
      have k2 : Keeps s (newReelRemoved r.tag (endRunOf st r.reel
          (setReel (withdrawGauge st arm t) i (some (unboundRecord r))))) :=
        newReelRemoved_keeps (endRunOf_keeps (setReel_keeps (withdrawGauge_keeps h)
          (some_recordKept e ⟨rfl, rfl, rfl, rfl, rfl⟩)))
      split
      · exact k i
      · exact k i
      · exact stopTracker_keeps (k i)
      · exact k2
      · exact k2
      · exact k2
      · exact k2

theorem setLoaded_keeps {st : StandId} {arm : Arm} {b : Bool} (h : Keeps s t) :
    Keeps s (setLoaded st arm b t) := modStand_keeps h ⟨id, id, id, fun _ x => x⟩

theorem armReportedEmpty_keeps {st : StandId} {arm : Arm} (h : Keeps s t) :
    Keeps s (armReportedEmpty st arm t) := by
  unfold armReportedEmpty
  dsimp only
  split
  · exact takeHardError_keeps (setLoaded_keeps (reelEmptied_keeps h))
  · exact setLoaded_keeps (reelEmptied_keeps h)

theorem clearTapeCounts_keeps {st : StandId} (h : Keeps s t) : Keeps s (clearTapeCounts st t) :=
  setArms_keeps h fun _ arm => by cases arm <;> simp [armGet]

theorem adoptMap_keeps {st : StandId} {m : PerArm SpiderPos} (h : Keeps s t) :
    Keeps s (adoptMap st m t) := by
  have k := clearTapeCounts_keeps (st := st)
    (modStand_keeps (st := st) (f := fun x => { x with map := some m }) h ⟨id, id, id, fun _ x => x⟩)
  unfold adoptMap
  dsimp only
  split
  · split
    · exact k
    · exact endRun_keeps k
  · exact k

theorem takeArmStatus_keeps {st : StandId} {arm : Arm} {x : ArmStatus} (h : Keeps s t) :
    Keeps s (takeArmStatus st arm x t) := by
  unfold takeArmStatus
  split
  · exact setLoaded_keeps h
  · exact armReportedEmpty_keeps h

theorem takeStatus_keeps {st : StandId} {x y z : ArmStatus} (h : Keeps s t) :
    Keeps s (takeStatus st x y z t) := by
  unfold takeStatus
  dsimp only
  have k : ∀ o u, Keeps s u → Keeps s (writeOutcome st o
      (takeArmStatus st .c z (takeArmStatus st .b y (takeArmStatus st .a x u)))) := fun o u hu =>
    writeOutcome_keeps (takeArmStatus_keeps (takeArmStatus_keeps (takeArmStatus_keeps hu)))
  have k1 : ∀ m, ∀ g : Bool, Keeps s (if g = true then adoptMap st m t else t) := fun m g => by
    split
    · exact adoptMap_keeps h
    · exact h
  exact ite_keeps (takeHardError_keeps (k _ _ (k1 _ _))) (k _ _ (k1 _ _))

theorem takeIndexDone_keeps {st : StandId} {m : PerArm SpiderPos} (h : Keeps s t) :
    Keeps s (takeIndexDone st m t) := by
  unfold takeIndexDone
  dsimp only
  split
  · exact takeHardError_keeps (writeOutcome_keeps h)
  · split
    · exact writeOutcome_keeps (startAtSplice_keeps (adoptMap_keeps h))
    · split
      · exact writeOutcome_keeps (startAtSplice_keeps (adoptMap_keeps h))
      · exact takeHardError_keeps (writeOutcome_keeps (startAtSplice_keeps (adoptMap_keeps h)))

/-! ## Window ends -/

/-- What every element of a fold keeps, the fold keeps. -/
theorem foldl_keeps {α : Type} (f : State → α → State) (hf : ∀ u a, Keeps s u → Keeps s (f u a))
    (l : List α) (h : Keeps s t) : Keeps s (l.foldl f t) := by
  induction l generalizing t with
  | nil => exact h
  | cons a l ih => exact ih (hf t a h)

theorem retestRows_keeps {l : LineId} (h : Keeps s t) : Keeps s (retestRows l t) := by
  refine foldl_keeps _ (fun u r hu => ?_) _ h
  split
  · exact testOrder_keeps hu
  · exact hu

theorem handWindowEnd_keeps {l : LineId} (h : Keeps s t) : Keeps s (handWindowEnd l t) :=
  foldl_keeps _ (fun _ _ hu => sequencerWindowEnd_keeps hu) _
    (retestRows_keeps (foldl_keeps _ (fun _ _ hu => trackerWindowEnd_keeps hu) _ h))

/-! ## Position reports -/

theorem reportCommitPoint_keeps {r : RowId} (h : Keeps s t) : Keeps s (reportCommitPoint r t) :=
  ite_keeps (testOrder_keeps h) h

theorem reportLatest_keeps {r : RowId} (h : Keeps s t) : Keeps s (reportLatest r t) :=
  ite_keeps (settle_keeps (latestReport_keeps h)) h

theorem reportDeadline_keeps {st : StandId} (h : Keeps s t) : Keeps s (reportDeadline st t) := by
  unfold reportDeadline
  split
  · exact sequencerClose_keeps h
  · exact h

theorem reportPaste_keeps {st : StandId} (h : Keeps s t) : Keeps s (reportPaste st t) :=
  ite_keeps (firePaste_keeps h) h

theorem reportKnife_keeps {st : StandId} (h : Keeps s t) : Keeps s (reportKnife st t) :=
  ite_keeps (fireKnife_keeps h) h

theorem reportStale_keeps {st : StandId} {arm : Arm} (h : Keeps s t) : Keeps s (reportStale st arm t) :=
  ite_keeps (setArmContext_keeps h (by simp [emptyArm])) h

theorem reportAll_keeps {α : Type} (later : List Instr) (c : α → Instr) (f : α → State → State)
    (hf : ∀ x u, Keeps s u → Keeps s (f x u)) (xs : List α) (h : Keeps s t) :
    Keeps s (reportAll later c f xs t) := foldl_keeps _ (fun u x hu => hf x u hu) _ h

/-- What the reports of a line at a pulse keep (R2). -/
theorem reportLine_keeps {l : LineId} {later : List Instr} (h : Keeps s t) :
    Keeps s (reportLine l later t) :=
  reportAll_keeps _ _ _ (fun _ _ hu => reportStale_keeps hu) _
    (reportAll_keeps _ _ _ (fun _ _ hu => reportKnife_keeps hu) _
    (reportAll_keeps _ _ _ (fun _ _ hu => reportPaste_keeps hu) _
    (reportAll_keeps _ _ _ (fun _ _ hu => reportDeadline_keeps hu) _
    (reportAll_keeps _ _ _ (fun _ _ hu => reportLatest_keeps hu) _
    (reportAll_keeps _ _ _ (fun _ _ hu => reportCommitPoint_keeps hu) _ h)))))

end Ops

end Sys2Proof.Machine
end

