-- ==== Sys2Proof/Laws/Frames.lean ====
section
/-! SUPPORT. The fields that each shared operation leaves as they are, and what an evaluation leaves of a row
that does not wait. -/

set_option linter.unusedTactic false
set_option linter.unnecessarySeqFocus false

namespace Sys2Proof.Machine

open Sys2Proof

@[simp] theorem raiseBit_arms (e : Bool) (n : Nat) (s : State) : (raiseBit e n s).arms = s.arms := by
  unfold raiseBit; (repeat' split) <;> simp [*]
@[simp] theorem raiseBit_outputs (e : Bool) (n : Nat) (s : State) : (raiseBit e n s).outputs = s.outputs := by
  unfold raiseBit; (repeat' split) <;> simp [*]
@[simp] theorem raiseBit_stands (e : Bool) (n : Nat) (s : State) : (raiseBit e n s).stands = s.stands := by
  unfold raiseBit; (repeat' split) <;> simp [*]
@[simp] theorem raiseBit_trackers (e : Bool) (n : Nat) (s : State) : (raiseBit e n s).trackers = s.trackers := by
  unfold raiseBit; (repeat' split) <;> simp [*]
@[simp] theorem raiseBit_bus (e : Bool) (n : Nat) (s : State) : (raiseBit e n s).bus = s.bus := by
  unfold raiseBit; (repeat' split) <;> simp [*]
@[simp] theorem raiseBit_rows (e : Bool) (n : Nat) (s : State) : (raiseBit e n s).rows = s.rows := by
  unfold raiseBit; (repeat' split) <;> simp [*]
@[simp] theorem raiseBit_reels (e : Bool) (n : Nat) (s : State) : (raiseBit e n s).reels = s.reels := by
  unfold raiseBit; (repeat' split) <;> simp [*]
@[simp] theorem raiseBit_schedules (e : Bool) (n : Nat) (s : State) : (raiseBit e n s).schedules = s.schedules := by
  unfold raiseBit; (repeat' split) <;> simp [*]
@[simp] theorem raiseBit_sequencers (e : Bool) (n : Nat) (s : State) : (raiseBit e n s).sequencers = s.sequencers := by
  unfold raiseBit; (repeat' split) <;> simp [*]
@[simp] theorem raiseBit_verifies (e : Bool) (n : Nat) (s : State) : (raiseBit e n s).verifies = s.verifies := by
  unfold raiseBit; (repeat' split) <;> simp [*]

@[simp] theorem raiseStand_arms (st : StandId) (s : State) : (raiseStand st s).arms = s.arms := by
  unfold raiseStand; (repeat' split) <;> simp [*]
@[simp] theorem raiseStand_outputs (st : StandId) (s : State) : (raiseStand st s).outputs = s.outputs := by
  unfold raiseStand; (repeat' split) <;> simp [*]
@[simp] theorem raiseStand_stands (st : StandId) (s : State) : (raiseStand st s).stands = s.stands := by
  unfold raiseStand; (repeat' split) <;> simp [*]
@[simp] theorem raiseStand_trackers (st : StandId) (s : State) : (raiseStand st s).trackers = s.trackers := by
  unfold raiseStand; (repeat' split) <;> simp [*]
@[simp] theorem raiseStand_bus (st : StandId) (s : State) : (raiseStand st s).bus = s.bus := by
  unfold raiseStand; (repeat' split) <;> simp [*]
@[simp] theorem raiseStand_rows (st : StandId) (s : State) : (raiseStand st s).rows = s.rows := by
  unfold raiseStand; (repeat' split) <;> simp [*]
@[simp] theorem raiseStand_reels (st : StandId) (s : State) : (raiseStand st s).reels = s.reels := by
  unfold raiseStand; (repeat' split) <;> simp [*]
@[simp] theorem raiseStand_schedules (st : StandId) (s : State) : (raiseStand st s).schedules = s.schedules := by
  unfold raiseStand; (repeat' split) <;> simp [*]
@[simp] theorem raiseStand_sequencers (st : StandId) (s : State) : (raiseStand st s).sequencers = s.sequencers := by
  unfold raiseStand; (repeat' split) <;> simp [*]
@[simp] theorem raiseStand_verifies (st : StandId) (s : State) : (raiseStand st s).verifies = s.verifies := by
  unfold raiseStand; (repeat' split) <;> simp [*]

@[simp] theorem raiseRow_arms (r : RowId) (st : StandId) (s : State) : (raiseRow r st s).arms = s.arms := by
  unfold raiseRow; (repeat' split) <;> simp [*]
@[simp] theorem raiseRow_outputs (r : RowId) (st : StandId) (s : State) : (raiseRow r st s).outputs = s.outputs := by
  unfold raiseRow; (repeat' split) <;> simp [*]
@[simp] theorem raiseRow_stands (r : RowId) (st : StandId) (s : State) : (raiseRow r st s).stands = s.stands := by
  unfold raiseRow; (repeat' split) <;> simp [*]
@[simp] theorem raiseRow_trackers (r : RowId) (st : StandId) (s : State) : (raiseRow r st s).trackers = s.trackers := by
  unfold raiseRow; (repeat' split) <;> simp [*]
@[simp] theorem raiseRow_bus (r : RowId) (st : StandId) (s : State) : (raiseRow r st s).bus = s.bus := by
  unfold raiseRow; (repeat' split) <;> simp [*]
@[simp] theorem raiseRow_rows (r : RowId) (st : StandId) (s : State) : (raiseRow r st s).rows = s.rows := by
  unfold raiseRow; (repeat' split) <;> simp [*]
@[simp] theorem raiseRow_reels (r : RowId) (st : StandId) (s : State) : (raiseRow r st s).reels = s.reels := by
  unfold raiseRow; (repeat' split) <;> simp [*]
@[simp] theorem raiseRow_schedules (r : RowId) (st : StandId) (s : State) : (raiseRow r st s).schedules = s.schedules := by
  unfold raiseRow; (repeat' split) <;> simp [*]
@[simp] theorem raiseRow_sequencers (r : RowId) (st : StandId) (s : State) : (raiseRow r st s).sequencers = s.sequencers := by
  unfold raiseRow; (repeat' split) <;> simp [*]
@[simp] theorem raiseRow_verifies (r : RowId) (st : StandId) (s : State) : (raiseRow r st s).verifies = s.verifies := by
  unfold raiseRow; (repeat' split) <;> simp [*]

@[simp] theorem raiseLine_arms (l : LineId) (s : State) : (raiseLine l s).arms = s.arms := by
  unfold raiseLine; (repeat' split) <;> simp [*]
@[simp] theorem raiseLine_outputs (l : LineId) (s : State) : (raiseLine l s).outputs = s.outputs := by
  unfold raiseLine; (repeat' split) <;> simp [*]
@[simp] theorem raiseLine_stands (l : LineId) (s : State) : (raiseLine l s).stands = s.stands := by
  unfold raiseLine; (repeat' split) <;> simp [*]
@[simp] theorem raiseLine_trackers (l : LineId) (s : State) : (raiseLine l s).trackers = s.trackers := by
  unfold raiseLine; (repeat' split) <;> simp [*]
@[simp] theorem raiseLine_bus (l : LineId) (s : State) : (raiseLine l s).bus = s.bus := by
  unfold raiseLine; (repeat' split) <;> simp [*]
@[simp] theorem raiseLine_rows (l : LineId) (s : State) : (raiseLine l s).rows = s.rows := by
  unfold raiseLine; (repeat' split) <;> simp [*]
@[simp] theorem raiseLine_reels (l : LineId) (s : State) : (raiseLine l s).reels = s.reels := by
  unfold raiseLine; (repeat' split) <;> simp [*]
@[simp] theorem raiseLine_schedules (l : LineId) (s : State) : (raiseLine l s).schedules = s.schedules := by
  unfold raiseLine; (repeat' split) <;> simp [*]
@[simp] theorem raiseLine_sequencers (l : LineId) (s : State) : (raiseLine l s).sequencers = s.sequencers := by
  unfold raiseLine; (repeat' split) <;> simp [*]
@[simp] theorem raiseLine_verifies (l : LineId) (s : State) : (raiseLine l s).verifies = s.verifies := by
  unfold raiseLine; (repeat' split) <;> simp [*]

@[simp] theorem writeOutcome_arms (st : StandId) (o : LastOutcome) (s : State) : (writeOutcome st o s).arms = s.arms := by
  unfold writeOutcome; (repeat' split) <;> simp [*]
@[simp] theorem writeOutcome_outputs (st : StandId) (o : LastOutcome) (s : State) : (writeOutcome st o s).outputs = s.outputs := by
  unfold writeOutcome; (repeat' split) <;> simp [*]
@[simp] theorem writeOutcome_trackers (st : StandId) (o : LastOutcome) (s : State) : (writeOutcome st o s).trackers = s.trackers := by
  unfold writeOutcome; (repeat' split) <;> simp [*]
@[simp] theorem writeOutcome_bus (st : StandId) (o : LastOutcome) (s : State) : (writeOutcome st o s).bus = s.bus := by
  unfold writeOutcome; (repeat' split) <;> simp [*]
@[simp] theorem writeOutcome_rows (st : StandId) (o : LastOutcome) (s : State) : (writeOutcome st o s).rows = s.rows := by
  unfold writeOutcome; (repeat' split) <;> simp [*]
@[simp] theorem writeOutcome_reels (st : StandId) (o : LastOutcome) (s : State) : (writeOutcome st o s).reels = s.reels := by
  unfold writeOutcome; (repeat' split) <;> simp [*]
@[simp] theorem writeOutcome_schedules (st : StandId) (o : LastOutcome) (s : State) : (writeOutcome st o s).schedules = s.schedules := by
  unfold writeOutcome; (repeat' split) <;> simp [*]
@[simp] theorem writeOutcome_sequencers (st : StandId) (o : LastOutcome) (s : State) : (writeOutcome st o s).sequencers = s.sequencers := by
  unfold writeOutcome; (repeat' split) <;> simp [*]
@[simp] theorem writeOutcome_verifies (st : StandId) (o : LastOutcome) (s : State) : (writeOutcome st o s).verifies = s.verifies := by
  unfold writeOutcome; (repeat' split) <;> simp [*]

@[simp] theorem queueRequest_arms (st : StandId) (r : Request) (s : State) : (queueRequest st r s).arms = s.arms := by
  unfold queueRequest; (repeat' split) <;> simp [*]
@[simp] theorem queueRequest_outputs (st : StandId) (r : Request) (s : State) : (queueRequest st r s).outputs = s.outputs := by
  unfold queueRequest; (repeat' split) <;> simp [*]
@[simp] theorem queueRequest_stands (st : StandId) (r : Request) (s : State) : (queueRequest st r s).stands = s.stands := by
  unfold queueRequest; (repeat' split) <;> simp [*]
@[simp] theorem queueRequest_trackers (st : StandId) (r : Request) (s : State) : (queueRequest st r s).trackers = s.trackers := by
  unfold queueRequest; (repeat' split) <;> simp [*]
@[simp] theorem queueRequest_rows (st : StandId) (r : Request) (s : State) : (queueRequest st r s).rows = s.rows := by
  unfold queueRequest; (repeat' split) <;> simp [*]
@[simp] theorem queueRequest_reels (st : StandId) (r : Request) (s : State) : (queueRequest st r s).reels = s.reels := by
  unfold queueRequest; (repeat' split) <;> simp [*]
@[simp] theorem queueRequest_schedules (st : StandId) (r : Request) (s : State) : (queueRequest st r s).schedules = s.schedules := by
  unfold queueRequest; (repeat' split) <;> simp [*]
@[simp] theorem queueRequest_sequencers (st : StandId) (r : Request) (s : State) : (queueRequest st r s).sequencers = s.sequencers := by
  unfold queueRequest; (repeat' split) <;> simp [*]
@[simp] theorem queueRequest_verifies (st : StandId) (r : Request) (s : State) : (queueRequest st r s).verifies = s.verifies := by
  unfold queueRequest; (repeat' split) <;> simp [*]
@[simp] theorem queueRequest_port (st : StandId) (r : Request) (s : State) : (queueRequest st r s).port = s.port := by
  unfold queueRequest; (repeat' split) <;> simp [*]

@[simp] theorem withdrawVerify_arms (st : StandId) (arm : Arm) (s : State) : (withdrawVerify st arm s).arms = s.arms := by
  unfold withdrawVerify; (repeat' split) <;> simp [*]
@[simp] theorem withdrawVerify_outputs (st : StandId) (arm : Arm) (s : State) : (withdrawVerify st arm s).outputs = s.outputs := by
  unfold withdrawVerify; (repeat' split) <;> simp [*]
@[simp] theorem withdrawVerify_stands (st : StandId) (arm : Arm) (s : State) : (withdrawVerify st arm s).stands = s.stands := by
  unfold withdrawVerify; (repeat' split) <;> simp [*]
@[simp] theorem withdrawVerify_trackers (st : StandId) (arm : Arm) (s : State) : (withdrawVerify st arm s).trackers = s.trackers := by
  unfold withdrawVerify; (repeat' split) <;> simp [*]
@[simp] theorem withdrawVerify_rows (st : StandId) (arm : Arm) (s : State) : (withdrawVerify st arm s).rows = s.rows := by
  unfold withdrawVerify; (repeat' split) <;> simp [*]
@[simp] theorem withdrawVerify_reels (st : StandId) (arm : Arm) (s : State) : (withdrawVerify st arm s).reels = s.reels := by
  unfold withdrawVerify; (repeat' split) <;> simp [*]
@[simp] theorem withdrawVerify_schedules (st : StandId) (arm : Arm) (s : State) : (withdrawVerify st arm s).schedules = s.schedules := by
  unfold withdrawVerify; (repeat' split) <;> simp [*]
@[simp] theorem withdrawVerify_sequencers (st : StandId) (arm : Arm) (s : State) : (withdrawVerify st arm s).sequencers = s.sequencers := by
  unfold withdrawVerify; (repeat' split) <;> simp [*]
@[simp] theorem withdrawVerify_verifies (st : StandId) (arm : Arm) (s : State) : (withdrawVerify st arm s).verifies = s.verifies := by
  unfold withdrawVerify; (repeat' split) <;> simp [*]
@[simp] theorem withdrawVerify_port (st : StandId) (arm : Arm) (s : State) : (withdrawVerify st arm s).port = s.port := by
  unfold withdrawVerify; (repeat' split) <;> simp [*]

@[simp] theorem withdrawGauge_arms (st : StandId) (arm : Arm) (s : State) : (withdrawGauge st arm s).arms = s.arms := by
  unfold withdrawGauge; (repeat' split) <;> simp [*]
@[simp] theorem withdrawGauge_outputs (st : StandId) (arm : Arm) (s : State) : (withdrawGauge st arm s).outputs = s.outputs := by
  unfold withdrawGauge; (repeat' split) <;> simp [*]
@[simp] theorem withdrawGauge_stands (st : StandId) (arm : Arm) (s : State) : (withdrawGauge st arm s).stands = s.stands := by
  unfold withdrawGauge; (repeat' split) <;> simp [*]
@[simp] theorem withdrawGauge_trackers (st : StandId) (arm : Arm) (s : State) : (withdrawGauge st arm s).trackers = s.trackers := by
  unfold withdrawGauge; (repeat' split) <;> simp [*]
@[simp] theorem withdrawGauge_rows (st : StandId) (arm : Arm) (s : State) : (withdrawGauge st arm s).rows = s.rows := by
  unfold withdrawGauge; (repeat' split) <;> simp [*]
@[simp] theorem withdrawGauge_reels' (st : StandId) (arm : Arm) (s : State) : (withdrawGauge st arm s).reels = s.reels := by
  unfold withdrawGauge; (repeat' split) <;> simp [*]
@[simp] theorem withdrawGauge_schedules (st : StandId) (arm : Arm) (s : State) : (withdrawGauge st arm s).schedules = s.schedules := by
  unfold withdrawGauge; (repeat' split) <;> simp [*]
@[simp] theorem withdrawGauge_sequencers (st : StandId) (arm : Arm) (s : State) : (withdrawGauge st arm s).sequencers = s.sequencers := by
  unfold withdrawGauge; (repeat' split) <;> simp [*]
@[simp] theorem withdrawGauge_verifies (st : StandId) (arm : Arm) (s : State) : (withdrawGauge st arm s).verifies = s.verifies := by
  unfold withdrawGauge; (repeat' split) <;> simp [*]
@[simp] theorem withdrawGauge_port (st : StandId) (arm : Arm) (s : State) : (withdrawGauge st arm s).port = s.port := by
  unfold withdrawGauge; (repeat' split) <;> simp [*]

@[simp] theorem openRead_arms (st : StandId) (k : ReadKind) (n : Option Nat) (s : State) : (openRead st k n s).arms = s.arms := by
  unfold openRead; (repeat' split) <;> simp [*]
@[simp] theorem openRead_outputs (st : StandId) (k : ReadKind) (n : Option Nat) (s : State) : (openRead st k n s).outputs = s.outputs := by
  unfold openRead; (repeat' split) <;> simp [*]
@[simp] theorem openRead_stands (st : StandId) (k : ReadKind) (n : Option Nat) (s : State) : (openRead st k n s).stands = s.stands := by
  unfold openRead; (repeat' split) <;> simp [*]
@[simp] theorem openRead_trackers (st : StandId) (k : ReadKind) (n : Option Nat) (s : State) : (openRead st k n s).trackers = s.trackers := by
  unfold openRead; (repeat' split) <;> simp [*]
@[simp] theorem openRead_rows (st : StandId) (k : ReadKind) (n : Option Nat) (s : State) : (openRead st k n s).rows = s.rows := by
  unfold openRead; (repeat' split) <;> simp [*]
@[simp] theorem openRead_reels (st : StandId) (k : ReadKind) (n : Option Nat) (s : State) : (openRead st k n s).reels = s.reels := by
  unfold openRead; (repeat' split) <;> simp [*]
@[simp] theorem openRead_schedules (st : StandId) (k : ReadKind) (n : Option Nat) (s : State) : (openRead st k n s).schedules = s.schedules := by
  unfold openRead; (repeat' split) <;> simp [*]
@[simp] theorem openRead_sequencers (st : StandId) (k : ReadKind) (n : Option Nat) (s : State) : (openRead st k n s).sequencers = s.sequencers := by
  unfold openRead; (repeat' split) <;> simp [*]
@[simp] theorem openRead_verifies (st : StandId) (k : ReadKind) (n : Option Nat) (s : State) : (openRead st k n s).verifies = s.verifies := by
  unfold openRead; (repeat' split) <;> simp [*]
@[simp] theorem openRead_port (st : StandId) (k : ReadKind) (n : Option Nat) (s : State) : (openRead st k n s).port = s.port := by
  unfold openRead; (repeat' split) <;> simp [*]

@[simp] theorem closeRead_arms (st : StandId) (k : ReadKind) (s : State) : (closeRead st k s).arms = s.arms := by
  unfold closeRead; (repeat' split) <;> simp [*]
@[simp] theorem closeRead_outputs (st : StandId) (k : ReadKind) (s : State) : (closeRead st k s).outputs = s.outputs := by
  unfold closeRead; (repeat' split) <;> simp [*]
@[simp] theorem closeRead_stands (st : StandId) (k : ReadKind) (s : State) : (closeRead st k s).stands = s.stands := by
  unfold closeRead; (repeat' split) <;> simp [*]
@[simp] theorem closeRead_trackers (st : StandId) (k : ReadKind) (s : State) : (closeRead st k s).trackers = s.trackers := by
  unfold closeRead; (repeat' split) <;> simp [*]
@[simp] theorem closeRead_rows (st : StandId) (k : ReadKind) (s : State) : (closeRead st k s).rows = s.rows := by
  unfold closeRead; (repeat' split) <;> simp [*]
@[simp] theorem closeRead_reels (st : StandId) (k : ReadKind) (s : State) : (closeRead st k s).reels = s.reels := by
  unfold closeRead; (repeat' split) <;> simp [*]
@[simp] theorem closeRead_schedules (st : StandId) (k : ReadKind) (s : State) : (closeRead st k s).schedules = s.schedules := by
  unfold closeRead; (repeat' split) <;> simp [*]
@[simp] theorem closeRead_sequencers (st : StandId) (k : ReadKind) (s : State) : (closeRead st k s).sequencers = s.sequencers := by
  unfold closeRead; (repeat' split) <;> simp [*]
@[simp] theorem closeRead_verifies (st : StandId) (k : ReadKind) (s : State) : (closeRead st k s).verifies = s.verifies := by
  unfold closeRead; (repeat' split) <;> simp [*]
@[simp] theorem closeRead_port (st : StandId) (k : ReadKind) (s : State) : (closeRead st k s).port = s.port := by
  unfold closeRead; (repeat' split) <;> simp [*]

@[simp] theorem setIndexRecord_arms (st : StandId) (x : Option Nat) (s : State) : (setIndexRecord st x s).arms = s.arms := by
  unfold setIndexRecord; (repeat' split) <;> simp [*]
@[simp] theorem setIndexRecord_outputs (st : StandId) (x : Option Nat) (s : State) : (setIndexRecord st x s).outputs = s.outputs := by
  unfold setIndexRecord; (repeat' split) <;> simp [*]
@[simp] theorem setIndexRecord_stands (st : StandId) (x : Option Nat) (s : State) : (setIndexRecord st x s).stands = s.stands := by
  unfold setIndexRecord; (repeat' split) <;> simp [*]
@[simp] theorem setIndexRecord_trackers (st : StandId) (x : Option Nat) (s : State) : (setIndexRecord st x s).trackers = s.trackers := by
  unfold setIndexRecord; (repeat' split) <;> simp [*]
@[simp] theorem setIndexRecord_rows (st : StandId) (x : Option Nat) (s : State) : (setIndexRecord st x s).rows = s.rows := by
  unfold setIndexRecord; (repeat' split) <;> simp [*]
@[simp] theorem setIndexRecord_reels (st : StandId) (x : Option Nat) (s : State) : (setIndexRecord st x s).reels = s.reels := by
  unfold setIndexRecord; (repeat' split) <;> simp [*]
@[simp] theorem setIndexRecord_schedules (st : StandId) (x : Option Nat) (s : State) : (setIndexRecord st x s).schedules = s.schedules := by
  unfold setIndexRecord; (repeat' split) <;> simp [*]
@[simp] theorem setIndexRecord_sequencers (st : StandId) (x : Option Nat) (s : State) : (setIndexRecord st x s).sequencers = s.sequencers := by
  unfold setIndexRecord; (repeat' split) <;> simp [*]
@[simp] theorem setIndexRecord_verifies (st : StandId) (x : Option Nat) (s : State) : (setIndexRecord st x s).verifies = s.verifies := by
  unfold setIndexRecord; (repeat' split) <;> simp [*]
@[simp] theorem setIndexRecord_port (st : StandId) (x : Option Nat) (s : State) : (setIndexRecord st x s).port = s.port := by
  unfold setIndexRecord; (repeat' split) <;> simp [*]

@[simp] theorem setLapses_arms (st : StandId) (n : Nat) (s : State) : (setLapses st n s).arms = s.arms := by
  unfold setLapses; (repeat' split) <;> simp [*]
@[simp] theorem setLapses_outputs (st : StandId) (n : Nat) (s : State) : (setLapses st n s).outputs = s.outputs := by
  unfold setLapses; (repeat' split) <;> simp [*]
@[simp] theorem setLapses_stands (st : StandId) (n : Nat) (s : State) : (setLapses st n s).stands = s.stands := by
  unfold setLapses; (repeat' split) <;> simp [*]
@[simp] theorem setLapses_trackers (st : StandId) (n : Nat) (s : State) : (setLapses st n s).trackers = s.trackers := by
  unfold setLapses; (repeat' split) <;> simp [*]
@[simp] theorem setLapses_rows (st : StandId) (n : Nat) (s : State) : (setLapses st n s).rows = s.rows := by
  unfold setLapses; (repeat' split) <;> simp [*]
@[simp] theorem setLapses_reels (st : StandId) (n : Nat) (s : State) : (setLapses st n s).reels = s.reels := by
  unfold setLapses; (repeat' split) <;> simp [*]
@[simp] theorem setLapses_schedules (st : StandId) (n : Nat) (s : State) : (setLapses st n s).schedules = s.schedules := by
  unfold setLapses; (repeat' split) <;> simp [*]
@[simp] theorem setLapses_sequencers (st : StandId) (n : Nat) (s : State) : (setLapses st n s).sequencers = s.sequencers := by
  unfold setLapses; (repeat' split) <;> simp [*]
@[simp] theorem setLapses_verifies (st : StandId) (n : Nat) (s : State) : (setLapses st n s).verifies = s.verifies := by
  unfold setLapses; (repeat' split) <;> simp [*]
@[simp] theorem setLapses_port (st : StandId) (n : Nat) (s : State) : (setLapses st n s).port = s.port := by
  unfold setLapses; (repeat' split) <;> simp [*]

@[simp] theorem freePair_arms (s : State) : (freePair s).arms = s.arms := by
  unfold freePair; (repeat' split) <;> simp [*]
@[simp] theorem freePair_outputs (s : State) : (freePair s).outputs = s.outputs := by
  unfold freePair; (repeat' split) <;> simp [*]
@[simp] theorem freePair_stands (s : State) : (freePair s).stands = s.stands := by
  unfold freePair; (repeat' split) <;> simp [*]
@[simp] theorem freePair_trackers (s : State) : (freePair s).trackers = s.trackers := by
  unfold freePair; (repeat' split) <;> simp [*]
@[simp] theorem freePair_rows (s : State) : (freePair s).rows = s.rows := by
  unfold freePair; (repeat' split) <;> simp [*]
@[simp] theorem freePair_reels (s : State) : (freePair s).reels = s.reels := by
  unfold freePair; (repeat' split) <;> simp [*]
@[simp] theorem freePair_schedules (s : State) : (freePair s).schedules = s.schedules := by
  unfold freePair; (repeat' split) <;> simp [*]
@[simp] theorem freePair_sequencers (s : State) : (freePair s).sequencers = s.sequencers := by
  unfold freePair; (repeat' split) <;> simp [*]
@[simp] theorem freePair_verifies (s : State) : (freePair s).verifies = s.verifies := by
  unfold freePair; (repeat' split) <;> simp [*]
@[simp] theorem freePair_port (s : State) : (freePair s).port = s.port := by
  unfold freePair; (repeat' split) <;> simp [*]

@[simp] theorem endGrant_arms (st : StandId) (s : State) : (endGrant st s).arms = s.arms := by
  unfold endGrant; (repeat' split) <;> simp [*]
@[simp] theorem endGrant_outputs (st : StandId) (s : State) : (endGrant st s).outputs = s.outputs := by
  unfold endGrant; (repeat' split) <;> simp [*]
@[simp] theorem endGrant_stands (st : StandId) (s : State) : (endGrant st s).stands = s.stands := by
  unfold endGrant; (repeat' split) <;> simp [*]
@[simp] theorem endGrant_trackers (st : StandId) (s : State) : (endGrant st s).trackers = s.trackers := by
  unfold endGrant; (repeat' split) <;> simp [*]
@[simp] theorem endGrant_rows (st : StandId) (s : State) : (endGrant st s).rows = s.rows := by
  unfold endGrant; (repeat' split) <;> simp [*]
@[simp] theorem endGrant_reels (st : StandId) (s : State) : (endGrant st s).reels = s.reels := by
  unfold endGrant; (repeat' split) <;> simp [*]
@[simp] theorem endGrant_schedules (st : StandId) (s : State) : (endGrant st s).schedules = s.schedules := by
  unfold endGrant; (repeat' split) <;> simp [*]
@[simp] theorem endGrant_sequencers (st : StandId) (s : State) : (endGrant st s).sequencers = s.sequencers := by
  unfold endGrant; (repeat' split) <;> simp [*]
@[simp] theorem endGrant_verifies (st : StandId) (s : State) : (endGrant st s).verifies = s.verifies := by
  unfold endGrant; (repeat' split) <;> simp [*]
@[simp] theorem endGrant_port (st : StandId) (s : State) : (endGrant st s).port = s.port := by
  unfold endGrant; (repeat' split) <;> simp [*]

@[simp] theorem clearStandBus_arms (st : StandId) (s : State) : (clearStandBus st s).arms = s.arms := by
  unfold clearStandBus; (repeat' split) <;> simp [*]
@[simp] theorem clearStandBus_outputs (st : StandId) (s : State) : (clearStandBus st s).outputs = s.outputs := by
  unfold clearStandBus; (repeat' split) <;> simp [*]
@[simp] theorem clearStandBus_stands (st : StandId) (s : State) : (clearStandBus st s).stands = s.stands := by
  unfold clearStandBus; (repeat' split) <;> simp [*]
@[simp] theorem clearStandBus_trackers (st : StandId) (s : State) : (clearStandBus st s).trackers = s.trackers := by
  unfold clearStandBus; (repeat' split) <;> simp [*]
@[simp] theorem clearStandBus_rows (st : StandId) (s : State) : (clearStandBus st s).rows = s.rows := by
  unfold clearStandBus; (repeat' split) <;> simp [*]
@[simp] theorem clearStandBus_reels (st : StandId) (s : State) : (clearStandBus st s).reels = s.reels := by
  unfold clearStandBus; (repeat' split) <;> simp [*]
@[simp] theorem clearStandBus_schedules (st : StandId) (s : State) : (clearStandBus st s).schedules = s.schedules := by
  unfold clearStandBus; (repeat' split) <;> simp [*]
@[simp] theorem clearStandBus_sequencers (st : StandId) (s : State) : (clearStandBus st s).sequencers = s.sequencers := by
  unfold clearStandBus; (repeat' split) <;> simp [*]
@[simp] theorem clearStandBus_verifies (st : StandId) (s : State) : (clearStandBus st s).verifies = s.verifies := by
  unfold clearStandBus; (repeat' split) <;> simp [*]
@[simp] theorem clearStandBus_port (st : StandId) (s : State) : (clearStandBus st s).port = s.port := by
  unfold clearStandBus; (repeat' split) <;> simp [*]

@[simp] theorem restartBus_arms (s : State) : (restartBus s).arms = s.arms := by
  unfold restartBus; (repeat' split) <;> simp [*]
@[simp] theorem restartBus_outputs (s : State) : (restartBus s).outputs = s.outputs := by
  unfold restartBus; (repeat' split) <;> simp [*]
@[simp] theorem restartBus_stands (s : State) : (restartBus s).stands = s.stands := by
  unfold restartBus; (repeat' split) <;> simp [*]
@[simp] theorem restartBus_trackers (s : State) : (restartBus s).trackers = s.trackers := by
  unfold restartBus; (repeat' split) <;> simp [*]
@[simp] theorem restartBus_rows (s : State) : (restartBus s).rows = s.rows := by
  unfold restartBus; (repeat' split) <;> simp [*]
@[simp] theorem restartBus_reels (s : State) : (restartBus s).reels = s.reels := by
  unfold restartBus; (repeat' split) <;> simp [*]
@[simp] theorem restartBus_schedules (s : State) : (restartBus s).schedules = s.schedules := by
  unfold restartBus; (repeat' split) <;> simp [*]
@[simp] theorem restartBus_sequencers (s : State) : (restartBus s).sequencers = s.sequencers := by
  unfold restartBus; (repeat' split) <;> simp [*]
@[simp] theorem restartBus_verifies (s : State) : (restartBus s).verifies = s.verifies := by
  unfold restartBus; (repeat' split) <;> simp [*]
@[simp] theorem restartBus_port (s : State) : (restartBus s).port = s.port := by
  unfold restartBus; (repeat' split) <;> simp [*]

@[simp] theorem requestTurn_arms (s : State) : (requestTurn s).arms = s.arms := by
  unfold requestTurn; (repeat' split) <;> simp [*]
@[simp] theorem requestTurn_outputs (s : State) : (requestTurn s).outputs = s.outputs := by
  unfold requestTurn; (repeat' split) <;> simp [*]
@[simp] theorem requestTurn_stands (s : State) : (requestTurn s).stands = s.stands := by
  unfold requestTurn; (repeat' split) <;> simp [*]
@[simp] theorem requestTurn_trackers (s : State) : (requestTurn s).trackers = s.trackers := by
  unfold requestTurn; (repeat' split) <;> simp [*]
@[simp] theorem requestTurn_rows (s : State) : (requestTurn s).rows = s.rows := by
  unfold requestTurn; (repeat' split) <;> simp [*]
@[simp] theorem requestTurn_reels (s : State) : (requestTurn s).reels = s.reels := by
  unfold requestTurn; (repeat' split) <;> simp [*]
@[simp] theorem requestTurn_schedules (s : State) : (requestTurn s).schedules = s.schedules := by
  unfold requestTurn; (repeat' split) <;> simp [*]
@[simp] theorem requestTurn_sequencers (s : State) : (requestTurn s).sequencers = s.sequencers := by
  unfold requestTurn; (repeat' split) <;> simp [*]
@[simp] theorem requestTurn_verifies (s : State) : (requestTurn s).verifies = s.verifies := by
  unfold requestTurn; (repeat' split) <;> simp [*]
@[simp] theorem requestTurn_port (s : State) : (requestTurn s).port = s.port := by
  unfold requestTurn; (repeat' split) <;> simp [*]

@[simp] theorem grantTurn_arms (s : State) : (grantTurn s).arms = s.arms := by
  unfold grantTurn; (repeat' split) <;> simp [*]
@[simp] theorem grantTurn_outputs (s : State) : (grantTurn s).outputs = s.outputs := by
  unfold grantTurn; (repeat' split) <;> simp [*]
@[simp] theorem grantTurn_stands (s : State) : (grantTurn s).stands = s.stands := by
  unfold grantTurn; (repeat' split) <;> simp [*]
@[simp] theorem grantTurn_trackers (s : State) : (grantTurn s).trackers = s.trackers := by
  unfold grantTurn; (repeat' split) <;> simp [*]
@[simp] theorem grantTurn_rows (s : State) : (grantTurn s).rows = s.rows := by
  unfold grantTurn; (repeat' split) <;> simp [*]
@[simp] theorem grantTurn_reels (s : State) : (grantTurn s).reels = s.reels := by
  unfold grantTurn; (repeat' split) <;> simp [*]
@[simp] theorem grantTurn_schedules (s : State) : (grantTurn s).schedules = s.schedules := by
  unfold grantTurn; (repeat' split) <;> simp [*]
@[simp] theorem grantTurn_sequencers (s : State) : (grantTurn s).sequencers = s.sequencers := by
  unfold grantTurn; (repeat' split) <;> simp [*]
@[simp] theorem grantTurn_verifies (s : State) : (grantTurn s).verifies = s.verifies := by
  unfold grantTurn; (repeat' split) <;> simp [*]
@[simp] theorem grantTurn_port (s : State) : (grantTurn s).port = s.port := by
  unfold grantTurn; (repeat' split) <;> simp [*]

@[simp] theorem arbitrate_arms (s : State) : (arbitrate s).arms = s.arms := by
  unfold arbitrate; (repeat' split) <;> simp [*]
@[simp] theorem arbitrate_outputs (s : State) : (arbitrate s).outputs = s.outputs := by
  unfold arbitrate; (repeat' split) <;> simp [*]
@[simp] theorem arbitrate_stands (s : State) : (arbitrate s).stands = s.stands := by
  unfold arbitrate; (repeat' split) <;> simp [*]
@[simp] theorem arbitrate_trackers (s : State) : (arbitrate s).trackers = s.trackers := by
  unfold arbitrate; (repeat' split) <;> simp [*]
@[simp] theorem arbitrate_rows (s : State) : (arbitrate s).rows = s.rows := by
  unfold arbitrate; (repeat' split) <;> simp [*]
@[simp] theorem arbitrate_reels (s : State) : (arbitrate s).reels = s.reels := by
  unfold arbitrate; (repeat' split) <;> simp [*]
@[simp] theorem arbitrate_schedules (s : State) : (arbitrate s).schedules = s.schedules := by
  unfold arbitrate; (repeat' split) <;> simp [*]
@[simp] theorem arbitrate_sequencers (s : State) : (arbitrate s).sequencers = s.sequencers := by
  unfold arbitrate; (repeat' split) <;> simp [*]
@[simp] theorem arbitrate_verifies (s : State) : (arbitrate s).verifies = s.verifies := by
  unfold arbitrate; (repeat' split) <;> simp [*]
@[simp] theorem arbitrate_port (s : State) : (arbitrate s).port = s.port := by
  unfold arbitrate; (repeat' split) <;> simp [*]

@[simp] theorem modReel_arms (n : Nat) (f : ReelRecord → ReelRecord) (s : State) : (modReel n f s).arms = s.arms := by
  unfold modReel; (repeat' split) <;> simp [*]
@[simp] theorem modReel_outputs (n : Nat) (f : ReelRecord → ReelRecord) (s : State) : (modReel n f s).outputs = s.outputs := by
  unfold modReel; (repeat' split) <;> simp [*]
@[simp] theorem modReel_stands (n : Nat) (f : ReelRecord → ReelRecord) (s : State) : (modReel n f s).stands = s.stands := by
  unfold modReel; (repeat' split) <;> simp [*]
@[simp] theorem modReel_trackers (n : Nat) (f : ReelRecord → ReelRecord) (s : State) : (modReel n f s).trackers = s.trackers := by
  unfold modReel; (repeat' split) <;> simp [*]
@[simp] theorem modReel_rows (n : Nat) (f : ReelRecord → ReelRecord) (s : State) : (modReel n f s).rows = s.rows := by
  unfold modReel; (repeat' split) <;> simp [*]
@[simp] theorem modReel_schedules (n : Nat) (f : ReelRecord → ReelRecord) (s : State) : (modReel n f s).schedules = s.schedules := by
  unfold modReel; (repeat' split) <;> simp [*]
@[simp] theorem modReel_sequencers (n : Nat) (f : ReelRecord → ReelRecord) (s : State) : (modReel n f s).sequencers = s.sequencers := by
  unfold modReel; (repeat' split) <;> simp [*]
@[simp] theorem modReel_verifies (n : Nat) (f : ReelRecord → ReelRecord) (s : State) : (modReel n f s).verifies = s.verifies := by
  unfold modReel; (repeat' split) <;> simp [*]
@[simp] theorem modReel_bus (n : Nat) (f : ReelRecord → ReelRecord) (s : State) : (modReel n f s).bus = s.bus := by
  unfold modReel; (repeat' split) <;> simp [*]
@[simp] theorem modReel_port (n : Nat) (f : ReelRecord → ReelRecord) (s : State) : (modReel n f s).port = s.port := by
  unfold modReel; (repeat' split) <;> simp [*]

@[simp] theorem startRun_arms (st : StandId) (n : Nat) (arm : Arm) (s : State) : (startRun st n arm s).arms = s.arms := by
  unfold startRun; (repeat' split) <;> simp [*]
@[simp] theorem startRun_outputs (st : StandId) (n : Nat) (arm : Arm) (s : State) : (startRun st n arm s).outputs = s.outputs := by
  unfold startRun; (repeat' split) <;> simp [*]
@[simp] theorem startRun_stands (st : StandId) (n : Nat) (arm : Arm) (s : State) : (startRun st n arm s).stands = s.stands := by
  unfold startRun; (repeat' split) <;> simp [*]
@[simp] theorem startRun_trackers (st : StandId) (n : Nat) (arm : Arm) (s : State) : (startRun st n arm s).trackers = s.trackers := by
  unfold startRun; (repeat' split) <;> simp [*]
@[simp] theorem startRun_rows (st : StandId) (n : Nat) (arm : Arm) (s : State) : (startRun st n arm s).rows = s.rows := by
  unfold startRun; (repeat' split) <;> simp [*]
@[simp] theorem startRun_schedules (st : StandId) (n : Nat) (arm : Arm) (s : State) : (startRun st n arm s).schedules = s.schedules := by
  unfold startRun; (repeat' split) <;> simp [*]
@[simp] theorem startRun_sequencers (st : StandId) (n : Nat) (arm : Arm) (s : State) : (startRun st n arm s).sequencers = s.sequencers := by
  unfold startRun; (repeat' split) <;> simp [*]
@[simp] theorem startRun_reels (st : StandId) (n : Nat) (arm : Arm) (s : State) : (startRun st n arm s).reels = s.reels := by
  unfold startRun; (repeat' split) <;> simp [*]
@[simp] theorem startRun_port (st : StandId) (n : Nat) (arm : Arm) (s : State) : (startRun st n arm s).port = s.port := by
  unfold startRun; (repeat' split) <;> simp [*]

@[simp] theorem startIfDue_arms (r : ReelRecord) (s : State) : (startIfDue r s).arms = s.arms := by
  unfold startIfDue; (repeat' split) <;> simp [*]
@[simp] theorem startIfDue_outputs (r : ReelRecord) (s : State) : (startIfDue r s).outputs = s.outputs := by
  unfold startIfDue; (repeat' split) <;> simp [*]
@[simp] theorem startIfDue_stands (r : ReelRecord) (s : State) : (startIfDue r s).stands = s.stands := by
  unfold startIfDue; (repeat' split) <;> simp [*]
@[simp] theorem startIfDue_trackers (r : ReelRecord) (s : State) : (startIfDue r s).trackers = s.trackers := by
  unfold startIfDue; (repeat' split) <;> simp [*]
@[simp] theorem startIfDue_rows (r : ReelRecord) (s : State) : (startIfDue r s).rows = s.rows := by
  unfold startIfDue; (repeat' split) <;> simp [*]
@[simp] theorem startIfDue_schedules (r : ReelRecord) (s : State) : (startIfDue r s).schedules = s.schedules := by
  unfold startIfDue; (repeat' split) <;> simp [*]
@[simp] theorem startIfDue_sequencers (r : ReelRecord) (s : State) : (startIfDue r s).sequencers = s.sequencers := by
  unfold startIfDue; (repeat' split) <;> simp [*]
@[simp] theorem startIfDue_reels (r : ReelRecord) (s : State) : (startIfDue r s).reels = s.reels := by
  unfold startIfDue; (repeat' split) <;> simp [*]
@[simp] theorem startIfDue_port (r : ReelRecord) (s : State) : (startIfDue r s).port = s.port := by
  unfold startIfDue; (repeat' split) <;> simp [*]

@[simp] theorem startAtSplice_arms (st : StandId) (s : State) : (startAtSplice st s).arms = s.arms := by
  unfold startAtSplice; (repeat' split) <;> simp [*]
@[simp] theorem startAtSplice_outputs (st : StandId) (s : State) : (startAtSplice st s).outputs = s.outputs := by
  unfold startAtSplice; (repeat' split) <;> simp [*]
@[simp] theorem startAtSplice_stands (st : StandId) (s : State) : (startAtSplice st s).stands = s.stands := by
  unfold startAtSplice; (repeat' split) <;> simp [*]
@[simp] theorem startAtSplice_trackers (st : StandId) (s : State) : (startAtSplice st s).trackers = s.trackers := by
  unfold startAtSplice; (repeat' split) <;> simp [*]
@[simp] theorem startAtSplice_rows (st : StandId) (s : State) : (startAtSplice st s).rows = s.rows := by
  unfold startAtSplice; (repeat' split) <;> simp [*]
@[simp] theorem startAtSplice_schedules (st : StandId) (s : State) : (startAtSplice st s).schedules = s.schedules := by
  unfold startAtSplice; (repeat' split) <;> simp [*]
@[simp] theorem startAtSplice_sequencers (st : StandId) (s : State) : (startAtSplice st s).sequencers = s.sequencers := by
  unfold startAtSplice; (repeat' split) <;> simp [*]
@[simp] theorem startAtSplice_reels (st : StandId) (s : State) : (startAtSplice st s).reels = s.reels := by
  unfold startAtSplice; (repeat' split) <;> simp [*]
@[simp] theorem startAtSplice_port (st : StandId) (s : State) : (startAtSplice st s).port = s.port := by
  unfold startAtSplice; (repeat' split) <;> simp [*]

@[simp] theorem endRun_arms (st : StandId) (s : State) : (endRun st s).arms = s.arms := by
  unfold endRun; (repeat' split) <;> simp [*]
@[simp] theorem endRun_outputs (st : StandId) (s : State) : (endRun st s).outputs = s.outputs := by
  unfold endRun; (repeat' split) <;> simp [*]
@[simp] theorem endRun_stands (st : StandId) (s : State) : (endRun st s).stands = s.stands := by
  unfold endRun; (repeat' split) <;> simp [*]
@[simp] theorem endRun_trackers (st : StandId) (s : State) : (endRun st s).trackers = s.trackers := by
  unfold endRun; (repeat' split) <;> simp [*]
@[simp] theorem endRun_rows (st : StandId) (s : State) : (endRun st s).rows = s.rows := by
  unfold endRun; (repeat' split) <;> simp [*]
@[simp] theorem endRun_schedules (st : StandId) (s : State) : (endRun st s).schedules = s.schedules := by
  unfold endRun; (repeat' split) <;> simp [*]
@[simp] theorem endRun_sequencers (st : StandId) (s : State) : (endRun st s).sequencers = s.sequencers := by
  unfold endRun; (repeat' split) <;> simp [*]
@[simp] theorem endRun_reels (st : StandId) (s : State) : (endRun st s).reels = s.reels := by
  unfold endRun; (repeat' split) <;> simp [*]
@[simp] theorem endRun_port (st : StandId) (s : State) : (endRun st s).port = s.port := by
  unfold endRun; (repeat' split) <;> simp [*]

@[simp] theorem verifyMark_arms (st : StandId) (arm : Arm) (n : Option Nat) (s : State) : (verifyMark st arm n s).arms = s.arms := by
  unfold verifyMark; (repeat' split) <;> simp [*]
@[simp] theorem verifyMark_outputs (st : StandId) (arm : Arm) (n : Option Nat) (s : State) : (verifyMark st arm n s).outputs = s.outputs := by
  unfold verifyMark; (repeat' split) <;> simp [*]
@[simp] theorem verifyMark_stands (st : StandId) (arm : Arm) (n : Option Nat) (s : State) : (verifyMark st arm n s).stands = s.stands := by
  unfold verifyMark; (repeat' split) <;> simp [*]
@[simp] theorem verifyMark_trackers (st : StandId) (arm : Arm) (n : Option Nat) (s : State) : (verifyMark st arm n s).trackers = s.trackers := by
  unfold verifyMark; (repeat' split) <;> simp [*]
@[simp] theorem verifyMark_rows (st : StandId) (arm : Arm) (n : Option Nat) (s : State) : (verifyMark st arm n s).rows = s.rows := by
  unfold verifyMark; (repeat' split) <;> simp [*]
@[simp] theorem verifyMark_schedules (st : StandId) (arm : Arm) (n : Option Nat) (s : State) : (verifyMark st arm n s).schedules = s.schedules := by
  unfold verifyMark; (repeat' split) <;> simp [*]
@[simp] theorem verifyMark_sequencers (st : StandId) (arm : Arm) (n : Option Nat) (s : State) : (verifyMark st arm n s).sequencers = s.sequencers := by
  unfold verifyMark; (repeat' split) <;> simp [*]
@[simp] theorem verifyMark_reels (st : StandId) (arm : Arm) (n : Option Nat) (s : State) : (verifyMark st arm n s).reels = s.reels := by
  unfold verifyMark; (repeat' split) <;> simp [*]
@[simp] theorem verifyMark_port (st : StandId) (arm : Arm) (n : Option Nat) (s : State) : (verifyMark st arm n s).port = s.port := by
  unfold verifyMark; (repeat' split) <;> simp [*]
@[simp] theorem verifyMark_bus (st : StandId) (arm : Arm) (n : Option Nat) (s : State) : (verifyMark st arm n s).bus = s.bus := by
  unfold verifyMark; (repeat' split) <;> simp [*]

@[simp] theorem repeatRun_arms (st : StandId) (n : Nat) (s : State) : (repeatRun st n s).arms = s.arms := by
  unfold repeatRun; dsimp only; (repeat' split) <;> simp [*]
@[simp] theorem repeatRun_outputs (st : StandId) (n : Nat) (s : State) : (repeatRun st n s).outputs = s.outputs := by
  unfold repeatRun; dsimp only; (repeat' split) <;> simp [*]
@[simp] theorem repeatRun_stands (st : StandId) (n : Nat) (s : State) : (repeatRun st n s).stands = s.stands := by
  unfold repeatRun; dsimp only; (repeat' split) <;> simp [*]
@[simp] theorem repeatRun_trackers (st : StandId) (n : Nat) (s : State) : (repeatRun st n s).trackers = s.trackers := by
  unfold repeatRun; dsimp only; (repeat' split) <;> simp [*]
@[simp] theorem repeatRun_rows (st : StandId) (n : Nat) (s : State) : (repeatRun st n s).rows = s.rows := by
  unfold repeatRun; dsimp only; (repeat' split) <;> simp [*]
@[simp] theorem repeatRun_schedules (st : StandId) (n : Nat) (s : State) : (repeatRun st n s).schedules = s.schedules := by
  unfold repeatRun; dsimp only; (repeat' split) <;> simp [*]
@[simp] theorem repeatRun_sequencers (st : StandId) (n : Nat) (s : State) : (repeatRun st n s).sequencers = s.sequencers := by
  unfold repeatRun; dsimp only; (repeat' split) <;> simp [*]
@[simp] theorem repeatRun_reels (st : StandId) (n : Nat) (s : State) : (repeatRun st n s).reels = s.reels := by
  unfold repeatRun; dsimp only; (repeat' split) <;> simp [*]
@[simp] theorem repeatRun_port (st : StandId) (n : Nat) (s : State) : (repeatRun st n s).port = s.port := by
  unfold repeatRun; dsimp only; (repeat' split) <;> simp [*]

@[simp] theorem finishRun_arms (st : StandId) (n : Nat) (v : VerifyResult) (s : State) : (finishRun st n v s).arms = s.arms := by
  unfold finishRun; (repeat' split) <;> simp [*]
@[simp] theorem finishRun_outputs (st : StandId) (n : Nat) (v : VerifyResult) (s : State) : (finishRun st n v s).outputs = s.outputs := by
  unfold finishRun; (repeat' split) <;> simp [*]
@[simp] theorem finishRun_stands (st : StandId) (n : Nat) (v : VerifyResult) (s : State) : (finishRun st n v s).stands = s.stands := by
  unfold finishRun; (repeat' split) <;> simp [*]
@[simp] theorem finishRun_trackers (st : StandId) (n : Nat) (v : VerifyResult) (s : State) : (finishRun st n v s).trackers = s.trackers := by
  unfold finishRun; (repeat' split) <;> simp [*]
@[simp] theorem finishRun_rows (st : StandId) (n : Nat) (v : VerifyResult) (s : State) : (finishRun st n v s).rows = s.rows := by
  unfold finishRun; (repeat' split) <;> simp [*]
@[simp] theorem finishRun_schedules (st : StandId) (n : Nat) (v : VerifyResult) (s : State) : (finishRun st n v s).schedules = s.schedules := by
  unfold finishRun; (repeat' split) <;> simp [*]
@[simp] theorem finishRun_sequencers (st : StandId) (n : Nat) (v : VerifyResult) (s : State) : (finishRun st n v s).sequencers = s.sequencers := by
  unfold finishRun; (repeat' split) <;> simp [*]

@[simp] theorem abortReturn_arms (row : OrderRow) (why : Option OrderReason) (s : State) : (abortReturn row why s).arms = s.arms := by
  unfold abortReturn; (repeat' split) <;> simp [*]
@[simp] theorem abortReturn_outputs (row : OrderRow) (why : Option OrderReason) (s : State) : (abortReturn row why s).outputs = s.outputs := by
  unfold abortReturn; (repeat' split) <;> simp [*]
@[simp] theorem abortReturn_stands (row : OrderRow) (why : Option OrderReason) (s : State) : (abortReturn row why s).stands = s.stands := by
  unfold abortReturn; (repeat' split) <;> simp [*]
@[simp] theorem abortReturn_trackers (row : OrderRow) (why : Option OrderReason) (s : State) : (abortReturn row why s).trackers = s.trackers := by
  unfold abortReturn; (repeat' split) <;> simp [*]
@[simp] theorem abortReturn_rows (row : OrderRow) (why : Option OrderReason) (s : State) : (abortReturn row why s).rows = s.rows := by
  unfold abortReturn; (repeat' split) <;> simp [*]
@[simp] theorem abortReturn_schedules (row : OrderRow) (why : Option OrderReason) (s : State) : (abortReturn row why s).schedules = s.schedules := by
  unfold abortReturn; (repeat' split) <;> simp [*]
@[simp] theorem abortReturn_sequencers (row : OrderRow) (why : Option OrderReason) (s : State) : (abortReturn row why s).sequencers = s.sequencers := by
  unfold abortReturn; (repeat' split) <;> simp [*]
@[simp] theorem abortReturn_port (row : OrderRow) (why : Option OrderReason) (s : State) : (abortReturn row why s).port = s.port := by
  unfold abortReturn; (repeat' split) <;> simp [*]

@[simp] theorem untagReel_arms (row : OrderRow) (n : Nat) (s : State) : (untagReel row n s).arms = s.arms := by
  unfold untagReel; (repeat' split) <;> simp [*]
@[simp] theorem untagReel_outputs (row : OrderRow) (n : Nat) (s : State) : (untagReel row n s).outputs = s.outputs := by
  unfold untagReel; (repeat' split) <;> simp [*]
@[simp] theorem untagReel_stands (row : OrderRow) (n : Nat) (s : State) : (untagReel row n s).stands = s.stands := by
  unfold untagReel; (repeat' split) <;> simp [*]
@[simp] theorem untagReel_trackers (row : OrderRow) (n : Nat) (s : State) : (untagReel row n s).trackers = s.trackers := by
  unfold untagReel; (repeat' split) <;> simp [*]
@[simp] theorem untagReel_rows (row : OrderRow) (n : Nat) (s : State) : (untagReel row n s).rows = s.rows := by
  unfold untagReel; (repeat' split) <;> simp [*]
@[simp] theorem untagReel_schedules (row : OrderRow) (n : Nat) (s : State) : (untagReel row n s).schedules = s.schedules := by
  unfold untagReel; (repeat' split) <;> simp [*]
@[simp] theorem untagReel_sequencers (row : OrderRow) (n : Nat) (s : State) : (untagReel row n s).sequencers = s.sequencers := by
  unfold untagReel; (repeat' split) <;> simp [*]
@[simp] theorem untagReel_verifies (row : OrderRow) (n : Nat) (s : State) : (untagReel row n s).verifies = s.verifies := by
  unfold untagReel; (repeat' split) <;> simp [*]
@[simp] theorem untagReel_bus (row : OrderRow) (n : Nat) (s : State) : (untagReel row n s).bus = s.bus := by
  unfold untagReel; (repeat' split) <;> simp [*]
@[simp] theorem untagReel_port (row : OrderRow) (n : Nat) (s : State) : (untagReel row n s).port = s.port := by
  unfold untagReel; (repeat' split) <;> simp [*]

@[simp] theorem untagOrder_arms (row : OrderRow) (s : State) : (untagOrder row s).arms = s.arms := by
  unfold untagOrder; (repeat' split) <;> simp [*]
@[simp] theorem untagOrder_outputs (row : OrderRow) (s : State) : (untagOrder row s).outputs = s.outputs := by
  unfold untagOrder; (repeat' split) <;> simp [*]
@[simp] theorem untagOrder_stands (row : OrderRow) (s : State) : (untagOrder row s).stands = s.stands := by
  unfold untagOrder; (repeat' split) <;> simp [*]
@[simp] theorem untagOrder_trackers (row : OrderRow) (s : State) : (untagOrder row s).trackers = s.trackers := by
  unfold untagOrder; (repeat' split) <;> simp [*]
@[simp] theorem untagOrder_rows (row : OrderRow) (s : State) : (untagOrder row s).rows = s.rows := by
  unfold untagOrder; (repeat' split) <;> simp [*]
@[simp] theorem untagOrder_schedules (row : OrderRow) (s : State) : (untagOrder row s).schedules = s.schedules := by
  unfold untagOrder; (repeat' split) <;> simp [*]
@[simp] theorem untagOrder_sequencers (row : OrderRow) (s : State) : (untagOrder row s).sequencers = s.sequencers := by
  unfold untagOrder; (repeat' split) <;> simp [*]
@[simp] theorem untagOrder_verifies (row : OrderRow) (s : State) : (untagOrder row s).verifies = s.verifies := by
  unfold untagOrder; (repeat' split) <;> simp [*]
@[simp] theorem untagOrder_bus (row : OrderRow) (s : State) : (untagOrder row s).bus = s.bus := by
  unfold untagOrder; (repeat' split) <;> simp [*]
@[simp] theorem untagOrder_port (row : OrderRow) (s : State) : (untagOrder row s).port = s.port := by
  unfold untagOrder; (repeat' split) <;> simp [*]

@[simp] theorem removeEntry_arms (l : LineId) (r : RowId) (s : State) : (removeEntry l r s).arms = s.arms := by
  unfold removeEntry; (repeat' split) <;> simp [*]
@[simp] theorem removeEntry_outputs (l : LineId) (r : RowId) (s : State) : (removeEntry l r s).outputs = s.outputs := by
  unfold removeEntry; (repeat' split) <;> simp [*]
@[simp] theorem removeEntry_stands (l : LineId) (r : RowId) (s : State) : (removeEntry l r s).stands = s.stands := by
  unfold removeEntry; (repeat' split) <;> simp [*]
@[simp] theorem removeEntry_trackers (l : LineId) (r : RowId) (s : State) : (removeEntry l r s).trackers = s.trackers := by
  unfold removeEntry; (repeat' split) <;> simp [*]
@[simp] theorem removeEntry_rows (l : LineId) (r : RowId) (s : State) : (removeEntry l r s).rows = s.rows := by
  unfold removeEntry; (repeat' split) <;> simp [*]
@[simp] theorem removeEntry_sequencers (l : LineId) (r : RowId) (s : State) : (removeEntry l r s).sequencers = s.sequencers := by
  unfold removeEntry; (repeat' split) <;> simp [*]
@[simp] theorem removeEntry_reels (l : LineId) (r : RowId) (s : State) : (removeEntry l r s).reels = s.reels := by
  unfold removeEntry; (repeat' split) <;> simp [*]
@[simp] theorem removeEntry_verifies (l : LineId) (r : RowId) (s : State) : (removeEntry l r s).verifies = s.verifies := by
  unfold removeEntry; (repeat' split) <;> simp [*]
@[simp] theorem removeEntry_bus (l : LineId) (r : RowId) (s : State) : (removeEntry l r s).bus = s.bus := by
  unfold removeEntry; (repeat' split) <;> simp [*]
@[simp] theorem removeEntry_port (l : LineId) (r : RowId) (s : State) : (removeEntry l r s).port = s.port := by
  unfold removeEntry; (repeat' split) <;> simp [*]

@[simp] theorem freezeEntry_arms (l : LineId) (r : RowId) (s : State) : (freezeEntry l r s).arms = s.arms := by
  unfold freezeEntry; (repeat' split) <;> simp [*]
@[simp] theorem freezeEntry_outputs (l : LineId) (r : RowId) (s : State) : (freezeEntry l r s).outputs = s.outputs := by
  unfold freezeEntry; (repeat' split) <;> simp [*]
@[simp] theorem freezeEntry_stands (l : LineId) (r : RowId) (s : State) : (freezeEntry l r s).stands = s.stands := by
  unfold freezeEntry; (repeat' split) <;> simp [*]
@[simp] theorem freezeEntry_trackers (l : LineId) (r : RowId) (s : State) : (freezeEntry l r s).trackers = s.trackers := by
  unfold freezeEntry; (repeat' split) <;> simp [*]
@[simp] theorem freezeEntry_rows (l : LineId) (r : RowId) (s : State) : (freezeEntry l r s).rows = s.rows := by
  unfold freezeEntry; (repeat' split) <;> simp [*]
@[simp] theorem freezeEntry_sequencers (l : LineId) (r : RowId) (s : State) : (freezeEntry l r s).sequencers = s.sequencers := by
  unfold freezeEntry; (repeat' split) <;> simp [*]
@[simp] theorem freezeEntry_reels (l : LineId) (r : RowId) (s : State) : (freezeEntry l r s).reels = s.reels := by
  unfold freezeEntry; (repeat' split) <;> simp [*]
@[simp] theorem freezeEntry_verifies (l : LineId) (r : RowId) (s : State) : (freezeEntry l r s).verifies = s.verifies := by
  unfold freezeEntry; (repeat' split) <;> simp [*]
@[simp] theorem freezeEntry_bus (l : LineId) (r : RowId) (s : State) : (freezeEntry l r s).bus = s.bus := by
  unfold freezeEntry; (repeat' split) <;> simp [*]
@[simp] theorem freezeEntry_port (l : LineId) (r : RowId) (s : State) : (freezeEntry l r s).port = s.port := by
  unfold freezeEntry; (repeat' split) <;> simp [*]

@[simp] theorem coastUnlessLost_arms (row : OrderRow) (b : Bool) (s : State) : (coastUnlessLost row b s).arms = s.arms := by
  unfold coastUnlessLost; (repeat' split) <;> simp [*]
@[simp] theorem coastUnlessLost_outputs (row : OrderRow) (b : Bool) (s : State) : (coastUnlessLost row b s).outputs = s.outputs := by
  unfold coastUnlessLost; (repeat' split) <;> simp [*]
@[simp] theorem coastUnlessLost_stands (row : OrderRow) (b : Bool) (s : State) : (coastUnlessLost row b s).stands = s.stands := by
  unfold coastUnlessLost; (repeat' split) <;> simp [*]
@[simp] theorem coastUnlessLost_trackers (row : OrderRow) (b : Bool) (s : State) : (coastUnlessLost row b s).trackers = s.trackers := by
  unfold coastUnlessLost; (repeat' split) <;> simp [*]
@[simp] theorem coastUnlessLost_rows (row : OrderRow) (b : Bool) (s : State) : (coastUnlessLost row b s).rows = s.rows := by
  unfold coastUnlessLost; (repeat' split) <;> simp [*]
@[simp] theorem coastUnlessLost_schedules (row : OrderRow) (b : Bool) (s : State) : (coastUnlessLost row b s).schedules = s.schedules := by
  unfold coastUnlessLost; (repeat' split) <;> simp [*]
@[simp] theorem coastUnlessLost_sequencers (row : OrderRow) (b : Bool) (s : State) : (coastUnlessLost row b s).sequencers = s.sequencers := by
  unfold coastUnlessLost; (repeat' split) <;> simp [*]
@[simp] theorem coastUnlessLost_reels (row : OrderRow) (b : Bool) (s : State) : (coastUnlessLost row b s).reels = s.reels := by
  unfold coastUnlessLost; (repeat' split) <;> simp [*]
@[simp] theorem coastUnlessLost_verifies (row : OrderRow) (b : Bool) (s : State) : (coastUnlessLost row b s).verifies = s.verifies := by
  unfold coastUnlessLost; (repeat' split) <;> simp [*]
@[simp] theorem coastUnlessLost_port (row : OrderRow) (b : Bool) (s : State) : (coastUnlessLost row b s).port = s.port := by
  unfold coastUnlessLost; (repeat' split) <;> simp [*]

@[simp] theorem commitReel_arms (row : OrderRow) (s : State) : (commitReel row s).arms = s.arms := by
  unfold commitReel; (repeat' split) <;> simp [*]
@[simp] theorem commitReel_outputs (row : OrderRow) (s : State) : (commitReel row s).outputs = s.outputs := by
  unfold commitReel; (repeat' split) <;> simp [*]
@[simp] theorem commitReel_stands (row : OrderRow) (s : State) : (commitReel row s).stands = s.stands := by
  unfold commitReel; (repeat' split) <;> simp [*]
@[simp] theorem commitReel_trackers (row : OrderRow) (s : State) : (commitReel row s).trackers = s.trackers := by
  unfold commitReel; (repeat' split) <;> simp [*]
@[simp] theorem commitReel_rows' (row : OrderRow) (s : State) : (commitReel row s).rows = s.rows := by
  unfold commitReel; (repeat' split) <;> simp [*]
@[simp] theorem commitReel_schedules (row : OrderRow) (s : State) : (commitReel row s).schedules = s.schedules := by
  unfold commitReel; (repeat' split) <;> simp [*]
@[simp] theorem commitReel_sequencers (row : OrderRow) (s : State) : (commitReel row s).sequencers = s.sequencers := by
  unfold commitReel; (repeat' split) <;> simp [*]
@[simp] theorem commitReel_verifies (row : OrderRow) (s : State) : (commitReel row s).verifies = s.verifies := by
  unfold commitReel; (repeat' split) <;> simp [*]
@[simp] theorem commitReel_bus (row : OrderRow) (s : State) : (commitReel row s).bus = s.bus := by
  unfold commitReel; (repeat' split) <;> simp [*]
@[simp] theorem commitReel_port (row : OrderRow) (s : State) : (commitReel row s).port = s.port := by
  unfold commitReel; (repeat' split) <;> simp [*]

@[simp] theorem closeRow_arms (r : RowId) (x : OrderState) (why : Option OrderReason) (d : Option DoneResults) (b : Bool) (s : State) : (closeRow r x why d b s).1.arms = s.arms := by
  unfold closeRow; (try dsimp only); (repeat' split) <;> simp [*]
@[simp] theorem closeRow_outputs (r : RowId) (x : OrderState) (why : Option OrderReason) (d : Option DoneResults) (b : Bool) (s : State) : (closeRow r x why d b s).1.outputs = s.outputs := by
  unfold closeRow; (try dsimp only); (repeat' split) <;> simp [*]
@[simp] theorem closeRow_stands (r : RowId) (x : OrderState) (why : Option OrderReason) (d : Option DoneResults) (b : Bool) (s : State) : (closeRow r x why d b s).1.stands = s.stands := by
  unfold closeRow; (try dsimp only); (repeat' split) <;> simp [*]
@[simp] theorem closeRow_trackers (r : RowId) (x : OrderState) (why : Option OrderReason) (d : Option DoneResults) (b : Bool) (s : State) : (closeRow r x why d b s).1.trackers = s.trackers := by
  unfold closeRow; (try dsimp only); (repeat' split) <;> simp [*]

@[simp] theorem commitRow_arms (r : RowId) (row : OrderRow) (p : Placement) (a : Nat) (b : Bool) (s : State) : (commitRow r row p a b s).1.arms = s.arms := by
  unfold commitRow; (try dsimp only); (repeat' split) <;> simp [*]
@[simp] theorem commitRow_outputs (r : RowId) (row : OrderRow) (p : Placement) (a : Nat) (b : Bool) (s : State) : (commitRow r row p a b s).1.outputs = s.outputs := by
  unfold commitRow; (try dsimp only); (repeat' split) <;> simp [*]
@[simp] theorem commitRow_stands (r : RowId) (row : OrderRow) (p : Placement) (a : Nat) (b : Bool) (s : State) : (commitRow r row p a b s).1.stands = s.stands := by
  unfold commitRow; (try dsimp only); (repeat' split) <;> simp [*]
@[simp] theorem commitRow_trackers (r : RowId) (row : OrderRow) (p : Placement) (a : Nat) (b : Bool) (s : State) : (commitRow r row p a b s).1.trackers = s.trackers := by
  unfold commitRow; (try dsimp only); (repeat' split) <;> simp [*]

@[simp] theorem commitTest_arms (r : RowId) (s : State) : (commitTest r s).1.arms = s.arms := by
  unfold commitTest; (try dsimp only); (repeat' split) <;> simp [*]
@[simp] theorem commitTest_outputs (r : RowId) (s : State) : (commitTest r s).1.outputs = s.outputs := by
  unfold commitTest; (try dsimp only); (repeat' split) <;> simp [*]
@[simp] theorem commitTest_stands (r : RowId) (s : State) : (commitTest r s).1.stands = s.stands := by
  unfold commitTest; (try dsimp only); (repeat' split) <;> simp [*]
@[simp] theorem commitTest_trackers (r : RowId) (s : State) : (commitTest r s).1.trackers = s.trackers := by
  unfold commitTest; (try dsimp only); (repeat' split) <;> simp [*]

@[simp] theorem latestReport_arms (r : RowId) (s : State) : (latestReport r s).1.arms = s.arms := by
  unfold latestReport; (try dsimp only); (repeat' split) <;> simp [*]
@[simp] theorem latestReport_outputs (r : RowId) (s : State) : (latestReport r s).1.outputs = s.outputs := by
  unfold latestReport; (try dsimp only); (repeat' split) <;> simp [*]
@[simp] theorem latestReport_stands (r : RowId) (s : State) : (latestReport r s).1.stands = s.stands := by
  unfold latestReport; (try dsimp only); (repeat' split) <;> simp [*]
@[simp] theorem latestReport_trackers (r : RowId) (s : State) : (latestReport r s).1.trackers = s.trackers := by
  unfold latestReport; (try dsimp only); (repeat' split) <;> simp [*]

@[simp] theorem handOff_arms (l : LineId) (acc : State × Nat) (e : Entry) :
    (handOff l acc e).1.arms = acc.1.arms := by
  unfold handOff; (try dsimp only); (repeat' split) <;> simp [*]
theorem handOffs_arms (l : LineId) (es : List Entry) (acc : State × Nat) :
    (es.foldl (handOff l) acc).1.arms = acc.1.arms := by
  induction es generalizing acc with
  | nil => rfl
  | cons e es ih => rw [List.foldl_cons, ih]; simp
@[simp] theorem evalOnce_arms (l : LineId) (s : State) : (evalOnce l s).1.arms = s.arms := by
  unfold evalOnce; dsimp only; rw [handOffs_arms]; dsimp only; split <;> simp
@[simp] theorem evalRounds_arms (n d : Nat) (l : LineId) (s : State) :
    (evalRounds n d l s).arms = s.arms := by
  induction n generalizing d s with
  | zero => rfl
  | succ n ih => cases d with
    | zero => rfl
    | succ d => simp [evalRounds, ih]
@[simp] theorem handOff_outputs (l : LineId) (acc : State × Nat) (e : Entry) :
    (handOff l acc e).1.outputs = acc.1.outputs := by
  unfold handOff; (try dsimp only); (repeat' split) <;> simp [*]
theorem handOffs_outputs (l : LineId) (es : List Entry) (acc : State × Nat) :
    (es.foldl (handOff l) acc).1.outputs = acc.1.outputs := by
  induction es generalizing acc with
  | nil => rfl
  | cons e es ih => rw [List.foldl_cons, ih]; simp
@[simp] theorem evalOnce_outputs (l : LineId) (s : State) : (evalOnce l s).1.outputs = s.outputs := by
  unfold evalOnce; dsimp only; rw [handOffs_outputs]; dsimp only; split <;> simp
@[simp] theorem evalRounds_outputs (n d : Nat) (l : LineId) (s : State) :
    (evalRounds n d l s).outputs = s.outputs := by
  induction n generalizing d s with
  | zero => rfl
  | succ n ih => cases d with
    | zero => rfl
    | succ d => simp [evalRounds, ih]
@[simp] theorem handOff_stands (l : LineId) (acc : State × Nat) (e : Entry) :
    (handOff l acc e).1.stands = acc.1.stands := by
  unfold handOff; (try dsimp only); (repeat' split) <;> simp [*]
theorem handOffs_stands (l : LineId) (es : List Entry) (acc : State × Nat) :
    (es.foldl (handOff l) acc).1.stands = acc.1.stands := by
  induction es generalizing acc with
  | nil => rfl
  | cons e es ih => rw [List.foldl_cons, ih]; simp
@[simp] theorem evalOnce_stands (l : LineId) (s : State) : (evalOnce l s).1.stands = s.stands := by
  unfold evalOnce; dsimp only; rw [handOffs_stands]; dsimp only; split <;> simp
@[simp] theorem evalRounds_stands (n d : Nat) (l : LineId) (s : State) :
    (evalRounds n d l s).stands = s.stands := by
  induction n generalizing d s with
  | zero => rfl
  | succ n ih => cases d with
    | zero => rfl
    | succ d => simp [evalRounds, ih]
@[simp] theorem handOff_trackers (l : LineId) (acc : State × Nat) (e : Entry) :
    (handOff l acc e).1.trackers = acc.1.trackers := by
  unfold handOff; (try dsimp only); (repeat' split) <;> simp [*]
theorem handOffs_trackers (l : LineId) (es : List Entry) (acc : State × Nat) :
    (es.foldl (handOff l) acc).1.trackers = acc.1.trackers := by
  induction es generalizing acc with
  | nil => rfl
  | cons e es ih => rw [List.foldl_cons, ih]; simp
@[simp] theorem evalOnce_trackers (l : LineId) (s : State) : (evalOnce l s).1.trackers = s.trackers := by
  unfold evalOnce; dsimp only; rw [handOffs_trackers]; dsimp only; split <;> simp
@[simp] theorem evalRounds_trackers (n d : Nat) (l : LineId) (s : State) :
    (evalRounds n d l s).trackers = s.trackers := by
  induction n generalizing d s with
  | zero => rfl
  | succ n ih => cases d with
    | zero => rfl
    | succ d => simp [evalRounds, ih]
@[simp] theorem settle_arms (l : LineId) (n : Nat) (s : State) : (settle l n s).arms = s.arms := by
  unfold settle; (try dsimp only); (repeat' split) <;> simp [*]
@[simp] theorem settle_outputs (l : LineId) (n : Nat) (s : State) : (settle l n s).outputs = s.outputs := by
  unfold settle; (try dsimp only); (repeat' split) <;> simp [*]
@[simp] theorem settle_stands (l : LineId) (n : Nat) (s : State) : (settle l n s).stands = s.stands := by
  unfold settle; (try dsimp only); (repeat' split) <;> simp [*]
@[simp] theorem settle_trackers (l : LineId) (n : Nat) (s : State) : (settle l n s).trackers = s.trackers := by
  unfold settle; (try dsimp only); (repeat' split) <;> simp [*]

@[simp] theorem evaluate_arms (l : LineId) (s : State) : (evaluate l s).arms = s.arms := by
  unfold evaluate; (try dsimp only); (repeat' split) <;> simp [*]
@[simp] theorem evaluate_outputs (l : LineId) (s : State) : (evaluate l s).outputs = s.outputs := by
  unfold evaluate; (try dsimp only); (repeat' split) <;> simp [*]
@[simp] theorem evaluate_stands (l : LineId) (s : State) : (evaluate l s).stands = s.stands := by
  unfold evaluate; (try dsimp only); (repeat' split) <;> simp [*]
@[simp] theorem evaluate_trackers (l : LineId) (s : State) : (evaluate l s).trackers = s.trackers := by
  unfold evaluate; (try dsimp only); (repeat' split) <;> simp [*]

@[simp] theorem closeOrder_arms (r : RowId) (x : OrderState) (why : OrderReason) (b : Bool) (s : State) : (closeOrder r x why b s).arms = s.arms := by
  unfold closeOrder; (try dsimp only); (repeat' split) <;> simp [*]
@[simp] theorem closeOrder_outputs (r : RowId) (x : OrderState) (why : OrderReason) (b : Bool) (s : State) : (closeOrder r x why b s).outputs = s.outputs := by
  unfold closeOrder; (try dsimp only); (repeat' split) <;> simp [*]
@[simp] theorem closeOrder_stands (r : RowId) (x : OrderState) (why : OrderReason) (b : Bool) (s : State) : (closeOrder r x why b s).stands = s.stands := by
  unfold closeOrder; (try dsimp only); (repeat' split) <;> simp [*]
@[simp] theorem closeOrder_trackers (r : RowId) (x : OrderState) (why : OrderReason) (b : Bool) (s : State) : (closeOrder r x why b s).trackers = s.trackers := by
  unfold closeOrder; (try dsimp only); (repeat' split) <;> simp [*]

@[simp] theorem testOrder_arms (r : RowId) (s : State) : (testOrder r s).arms = s.arms := by
  unfold testOrder; (try dsimp only); (repeat' split) <;> simp [*]
@[simp] theorem testOrder_outputs (r : RowId) (s : State) : (testOrder r s).outputs = s.outputs := by
  unfold testOrder; (try dsimp only); (repeat' split) <;> simp [*]
@[simp] theorem testOrder_stands (r : RowId) (s : State) : (testOrder r s).stands = s.stands := by
  unfold testOrder; (try dsimp only); (repeat' split) <;> simp [*]
@[simp] theorem testOrder_trackers (r : RowId) (s : State) : (testOrder r s).trackers = s.trackers := by
  unfold testOrder; (try dsimp only); (repeat' split) <;> simp [*]

@[simp] theorem joinSchedule_arms (r : RowId) (st : StandId) (s : State) : (joinSchedule r st s).arms = s.arms := by
  unfold joinSchedule; (try dsimp only); (repeat' split) <;> simp [*]
@[simp] theorem joinSchedule_outputs (r : RowId) (st : StandId) (s : State) : (joinSchedule r st s).outputs = s.outputs := by
  unfold joinSchedule; (try dsimp only); (repeat' split) <;> simp [*]
@[simp] theorem joinSchedule_stands (r : RowId) (st : StandId) (s : State) : (joinSchedule r st s).stands = s.stands := by
  unfold joinSchedule; (try dsimp only); (repeat' split) <;> simp [*]
@[simp] theorem joinSchedule_trackers (r : RowId) (st : StandId) (s : State) : (joinSchedule r st s).trackers = s.trackers := by
  unfold joinSchedule; (try dsimp only); (repeat' split) <;> simp [*]

@[simp] theorem handPositions_arms (st : StandId) (s : State) : (handPositions st s).arms = s.arms := by
  unfold handPositions; (try dsimp only); (repeat' split) <;> simp [*]
@[simp] theorem handPositions_outputs (st : StandId) (s : State) : (handPositions st s).outputs = s.outputs := by
  unfold handPositions; (try dsimp only); (repeat' split) <;> simp [*]
@[simp] theorem handPositions_stands (st : StandId) (s : State) : (handPositions st s).stands = s.stands := by
  unfold handPositions; (try dsimp only); (repeat' split) <;> simp [*]
@[simp] theorem handPositions_trackers (st : StandId) (s : State) : (handPositions st s).trackers = s.trackers := by
  unfold handPositions; (try dsimp only); (repeat' split) <;> simp [*]

@[simp] theorem runoutCheck_arms (st : StandId) (s : State) : (runoutCheck st s).arms = s.arms := by
  unfold runoutCheck; (try dsimp only); (repeat' split) <;> simp [*]
@[simp] theorem runoutCheck_outputs (st : StandId) (s : State) : (runoutCheck st s).outputs = s.outputs := by
  unfold runoutCheck; (try dsimp only); (repeat' split) <;> simp [*]
@[simp] theorem runoutCheck_stands (st : StandId) (s : State) : (runoutCheck st s).stands = s.stands := by
  unfold runoutCheck; (try dsimp only); (repeat' split) <;> simp [*]

@[simp] theorem finishSample_arms (st : StandId) (x : Tracker) (c : Nat) (p : Pos) (s : State) : (finishSample st x c p s).arms = s.arms := by
  unfold finishSample; (try dsimp only); (repeat' split) <;> simp [*]
@[simp] theorem finishSample_outputs (st : StandId) (x : Tracker) (c : Nat) (p : Pos) (s : State) : (finishSample st x c p s).outputs = s.outputs := by
  unfold finishSample; (try dsimp only); (repeat' split) <;> simp [*]
@[simp] theorem finishSample_stands (st : StandId) (x : Tracker) (c : Nat) (p : Pos) (s : State) : (finishSample st x c p s).stands = s.stands := by
  unfold finishSample; (try dsimp only); (repeat' split) <;> simp [*]

@[simp] theorem acceptSample_arms (st : StandId) (x : Tracker) (c : Nat) (p : Pos) (s : State) : (acceptSample st x c p s).arms = s.arms := by
  unfold acceptSample; (try dsimp only); (repeat' split) <;> simp [*]
@[simp] theorem acceptSample_outputs (st : StandId) (x : Tracker) (c : Nat) (p : Pos) (s : State) : (acceptSample st x c p s).outputs = s.outputs := by
  unfold acceptSample; (try dsimp only); (repeat' split) <;> simp [*]
@[simp] theorem acceptSample_stands (st : StandId) (x : Tracker) (c : Nat) (p : Pos) (s : State) : (acceptSample st x c p s).stands = s.stands := by
  unfold acceptSample; (try dsimp only); (repeat' split) <;> simp [*]

@[simp] theorem rejectSample_arms (st : StandId) (x : Tracker) (s : State) : (rejectSample st x s).arms = s.arms := by
  unfold rejectSample; (try dsimp only); (repeat' split) <;> simp [*]
@[simp] theorem rejectSample_outputs (st : StandId) (x : Tracker) (s : State) : (rejectSample st x s).outputs = s.outputs := by
  unfold rejectSample; (try dsimp only); (repeat' split) <;> simp [*]
@[simp] theorem rejectSample_stands (st : StandId) (x : Tracker) (s : State) : (rejectSample st x s).stands = s.stands := by
  unfold rejectSample; (try dsimp only); (repeat' split) <;> simp [*]

@[simp] theorem recover_arms (st : StandId) (x : Tracker) (k c : Nat) (p : Pos) (s : State) : (recover st x k c p s).arms = s.arms := by
  unfold recover; (try dsimp only); (repeat' split) <;> simp [*]
@[simp] theorem recover_outputs (st : StandId) (x : Tracker) (k c : Nat) (p : Pos) (s : State) : (recover st x k c p s).outputs = s.outputs := by
  unfold recover; (try dsimp only); (repeat' split) <;> simp [*]
@[simp] theorem recover_stands (st : StandId) (x : Tracker) (k c : Nat) (p : Pos) (s : State) : (recover st x k c p s).stands = s.stands := by
  unfold recover; (try dsimp only); (repeat' split) <;> simp [*]

@[simp] theorem recoverySample_arms (st : StandId) (x : Tracker) (c : Nat) (p : Pos) (s : State) : (recoverySample st x c p s).arms = s.arms := by
  unfold recoverySample; (try dsimp only); (repeat' split) <;> simp [*]
@[simp] theorem recoverySample_outputs (st : StandId) (x : Tracker) (c : Nat) (p : Pos) (s : State) : (recoverySample st x c p s).outputs = s.outputs := by
  unfold recoverySample; (try dsimp only); (repeat' split) <;> simp [*]
@[simp] theorem recoverySample_stands (st : StandId) (x : Tracker) (c : Nat) (p : Pos) (s : State) : (recoverySample st x c p s).stands = s.stands := by
  unfold recoverySample; (try dsimp only); (repeat' split) <;> simp [*]

@[simp] theorem trackerInterval_arms (st : StandId) (arm : Arm) (w : Nat) (p : Pos) (s : State) : (trackerInterval st arm w p s).arms = s.arms := by
  unfold trackerInterval; (try dsimp only); (repeat' split) <;> simp [*]
@[simp] theorem trackerInterval_outputs (st : StandId) (arm : Arm) (w : Nat) (p : Pos) (s : State) : (trackerInterval st arm w p s).outputs = s.outputs := by
  unfold trackerInterval; (try dsimp only); (repeat' split) <;> simp [*]
@[simp] theorem trackerInterval_stands (st : StandId) (arm : Arm) (w : Nat) (p : Pos) (s : State) : (trackerInterval st arm w p s).stands = s.stands := by
  unfold trackerInterval; (try dsimp only); (repeat' split) <;> simp [*]

@[simp] theorem holdTest_arms (st : StandId) (v n : Nat) (s : State) : (holdTest st v n s).arms = s.arms := by
  unfold holdTest; (try dsimp only); (repeat' split) <;> simp [*]
@[simp] theorem holdTest_outputs (st : StandId) (v n : Nat) (s : State) : (holdTest st v n s).outputs = s.outputs := by
  unfold holdTest; (try dsimp only); (repeat' split) <;> simp [*]
@[simp] theorem holdTest_stands (st : StandId) (v n : Nat) (s : State) : (holdTest st v n s).stands = s.stands := by
  unfold holdTest; (try dsimp only); (repeat' split) <;> simp [*]

@[simp] theorem trackerWindowEnd_arms (st : StandId) (v n : Nat) (s : State) : (trackerWindowEnd st v n s).arms = s.arms := by
  unfold trackerWindowEnd; (try dsimp only); (repeat' split) <;> simp [*]
@[simp] theorem trackerWindowEnd_outputs (st : StandId) (v n : Nat) (s : State) : (trackerWindowEnd st v n s).outputs = s.outputs := by
  unfold trackerWindowEnd; (try dsimp only); (repeat' split) <;> simp [*]
@[simp] theorem trackerWindowEnd_stands (st : StandId) (v n : Nat) (s : State) : (trackerWindowEnd st v n s).stands = s.stands := by
  unfold trackerWindowEnd; (try dsimp only); (repeat' split) <;> simp [*]

@[simp] theorem startTracker_arms (st : StandId) (n : Nat) (arm : Arm) (c : Option Nat) (s : State) : (startTracker st n arm c s).arms = s.arms := by
  unfold startTracker; (try dsimp only); (repeat' split) <;> simp [*]
@[simp] theorem startTracker_outputs (st : StandId) (n : Nat) (arm : Arm) (c : Option Nat) (s : State) : (startTracker st n arm c s).outputs = s.outputs := by
  unfold startTracker; (try dsimp only); (repeat' split) <;> simp [*]
@[simp] theorem startTracker_stands (st : StandId) (n : Nat) (arm : Arm) (c : Option Nat) (s : State) : (startTracker st n arm c s).stands = s.stands := by
  unfold startTracker; (try dsimp only); (repeat' split) <;> simp [*]

@[simp] theorem stopTracker_arms (st : StandId) (s : State) : (stopTracker st s).arms = s.arms := by
  unfold stopTracker; (try dsimp only); (repeat' split) <;> simp [*]
@[simp] theorem stopTracker_outputs (st : StandId) (s : State) : (stopTracker st s).outputs = s.outputs := by
  unfold stopTracker; (try dsimp only); (repeat' split) <;> simp [*]
@[simp] theorem stopTracker_stands (st : StandId) (s : State) : (stopTracker st s).stands = s.stands := by
  unfold stopTracker; (try dsimp only); (repeat' split) <;> simp [*]

@[simp] theorem modSequencer_arms (st : StandId) (f : Sequencer → Sequencer) (s : State) : (modSequencer st f s).arms = s.arms := by
  unfold modSequencer; (try dsimp only); (repeat' split) <;> simp [*]
@[simp] theorem modSequencer_outputs (st : StandId) (f : Sequencer → Sequencer) (s : State) : (modSequencer st f s).outputs = s.outputs := by
  unfold modSequencer; (try dsimp only); (repeat' split) <;> simp [*]
@[simp] theorem modSequencer_stands (st : StandId) (f : Sequencer → Sequencer) (s : State) : (modSequencer st f s).stands = s.stands := by
  unfold modSequencer; (try dsimp only); (repeat' split) <;> simp [*]
@[simp] theorem modSequencer_trackers (st : StandId) (f : Sequencer → Sequencer) (s : State) : (modSequencer st f s).trackers = s.trackers := by
  unfold modSequencer; (try dsimp only); (repeat' split) <;> simp [*]

@[simp] theorem modRow_arms (r : RowId) (f : OrderRow → OrderRow) (s : State) : (modRow r f s).arms = s.arms := by
  unfold modRow; (try dsimp only); (repeat' split) <;> simp [*]
@[simp] theorem modRow_outputs (r : RowId) (f : OrderRow → OrderRow) (s : State) : (modRow r f s).outputs = s.outputs := by
  unfold modRow; (try dsimp only); (repeat' split) <;> simp [*]
@[simp] theorem modRow_stands (r : RowId) (f : OrderRow → OrderRow) (s : State) : (modRow r f s).stands = s.stands := by
  unfold modRow; (try dsimp only); (repeat' split) <;> simp [*]
@[simp] theorem modRow_trackers (r : RowId) (f : OrderRow → OrderRow) (s : State) : (modRow r f s).trackers = s.trackers := by
  unfold modRow; (try dsimp only); (repeat' split) <;> simp [*]

@[simp] theorem writeRowState_arms (r : RowId) (st : StandId) (x : OrderState) (s : State) : (writeRowState r st x s).arms = s.arms := by
  unfold writeRowState; (try dsimp only); (repeat' split) <;> simp [*]
@[simp] theorem writeRowState_outputs (r : RowId) (st : StandId) (x : OrderState) (s : State) : (writeRowState r st x s).outputs = s.outputs := by
  unfold writeRowState; (try dsimp only); (repeat' split) <;> simp [*]
@[simp] theorem writeRowState_stands (r : RowId) (st : StandId) (x : OrderState) (s : State) : (writeRowState r st x s).stands = s.stands := by
  unfold writeRowState; (try dsimp only); (repeat' split) <;> simp [*]
@[simp] theorem writeRowState_trackers (r : RowId) (st : StandId) (x : OrderState) (s : State) : (writeRowState r st x s).trackers = s.trackers := by
  unfold writeRowState; (try dsimp only); (repeat' split) <;> simp [*]

@[simp] theorem sequencerClose_arms (q : Sequencer) (why : OrderReason) (s : State) : (sequencerClose q why s).arms = s.arms := by
  unfold sequencerClose; (try dsimp only); (repeat' split) <;> simp [*]
@[simp] theorem sequencerClose_outputs (q : Sequencer) (why : OrderReason) (s : State) : (sequencerClose q why s).outputs = s.outputs := by
  unfold sequencerClose; (try dsimp only); (repeat' split) <;> simp [*]
@[simp] theorem sequencerClose_stands (q : Sequencer) (why : OrderReason) (s : State) : (sequencerClose q why s).stands = s.stands := by
  unfold sequencerClose; (try dsimp only); (repeat' split) <;> simp [*]
@[simp] theorem sequencerClose_trackers (q : Sequencer) (why : OrderReason) (s : State) : (sequencerClose q why s).trackers = s.trackers := by
  unfold sequencerClose; (try dsimp only); (repeat' split) <;> simp [*]

@[simp] theorem accelInterval_arms (st : StandId) (q : Sequencer) (w : Nat) (s : State) : (accelInterval st q w s).arms = s.arms := by
  unfold accelInterval; (try dsimp only); (repeat' split) <;> simp [*]
@[simp] theorem accelInterval_outputs (st : StandId) (q : Sequencer) (w : Nat) (s : State) : (accelInterval st q w s).outputs = s.outputs := by
  unfold accelInterval; (try dsimp only); (repeat' split) <;> simp [*]
@[simp] theorem accelInterval_stands (st : StandId) (q : Sequencer) (w : Nat) (s : State) : (accelInterval st q w s).stands = s.stands := by
  unfold accelInterval; (try dsimp only); (repeat' split) <;> simp [*]
@[simp] theorem accelInterval_trackers (st : StandId) (q : Sequencer) (w : Nat) (s : State) : (accelInterval st q w s).trackers = s.trackers := by
  unfold accelInterval; (try dsimp only); (repeat' split) <;> simp [*]

@[simp] theorem retryMatch_arms (st : StandId) (q : Sequencer) (s : State) : (retryMatch st q s).arms = s.arms := by
  unfold retryMatch; (try dsimp only); (repeat' split) <;> simp [*]
@[simp] theorem retryMatch_outputs (st : StandId) (q : Sequencer) (s : State) : (retryMatch st q s).outputs = s.outputs := by
  unfold retryMatch; (try dsimp only); (repeat' split) <;> simp [*]
@[simp] theorem retryMatch_stands (st : StandId) (q : Sequencer) (s : State) : (retryMatch st q s).stands = s.stands := by
  unfold retryMatch; (try dsimp only); (repeat' split) <;> simp [*]
@[simp] theorem retryMatch_trackers (st : StandId) (q : Sequencer) (s : State) : (retryMatch st q s).trackers = s.trackers := by
  unfold retryMatch; (try dsimp only); (repeat' split) <;> simp [*]

@[simp] theorem matchLoss_arms (st : StandId) (q : Sequencer) (s : State) : (matchLoss st q s).arms = s.arms := by
  unfold matchLoss; (try dsimp only); (repeat' split) <;> simp [*]
@[simp] theorem matchLoss_outputs (st : StandId) (q : Sequencer) (s : State) : (matchLoss st q s).outputs = s.outputs := by
  unfold matchLoss; (try dsimp only); (repeat' split) <;> simp [*]
@[simp] theorem matchLoss_stands (st : StandId) (q : Sequencer) (s : State) : (matchLoss st q s).stands = s.stands := by
  unfold matchLoss; (try dsimp only); (repeat' split) <;> simp [*]
@[simp] theorem matchLoss_trackers (st : StandId) (q : Sequencer) (s : State) : (matchLoss st q s).trackers = s.trackers := by
  unfold matchLoss; (try dsimp only); (repeat' split) <;> simp [*]

@[simp] theorem tapeRevolution_arms (st : StandId) (q : Sequencer) (n : Nat) (s : State) : (tapeRevolution st q n s).arms = s.arms := by
  unfold tapeRevolution; (try dsimp only); (repeat' split) <;> simp [*]
@[simp] theorem tapeRevolution_outputs (st : StandId) (q : Sequencer) (n : Nat) (s : State) : (tapeRevolution st q n s).outputs = s.outputs := by
  unfold tapeRevolution; (try dsimp only); (repeat' split) <;> simp [*]
@[simp] theorem tapeRevolution_stands (st : StandId) (q : Sequencer) (n : Nat) (s : State) : (tapeRevolution st q n s).stands = s.stands := by
  unfold tapeRevolution; (try dsimp only); (repeat' split) <;> simp [*]
@[simp] theorem tapeRevolution_trackers (st : StandId) (q : Sequencer) (n : Nat) (s : State) : (tapeRevolution st q n s).trackers = s.trackers := by
  unfold tapeRevolution; (try dsimp only); (repeat' split) <;> simp [*]

@[simp] theorem matchedInterval_arms (st : StandId) (q : Sequencer) (w n : Nat) (s : State) : (matchedInterval st q w n s).arms = s.arms := by
  unfold matchedInterval; (try dsimp only); (repeat' split) <;> simp [*]
@[simp] theorem matchedInterval_outputs (st : StandId) (q : Sequencer) (w n : Nat) (s : State) : (matchedInterval st q w n s).outputs = s.outputs := by
  unfold matchedInterval; (try dsimp only); (repeat' split) <;> simp [*]
@[simp] theorem matchedInterval_stands (st : StandId) (q : Sequencer) (w n : Nat) (s : State) : (matchedInterval st q w n s).stands = s.stands := by
  unfold matchedInterval; (try dsimp only); (repeat' split) <;> simp [*]
@[simp] theorem matchedInterval_trackers (st : StandId) (q : Sequencer) (w n : Nat) (s : State) : (matchedInterval st q w n s).trackers = s.trackers := by
  unfold matchedInterval; (try dsimp only); (repeat' split) <;> simp [*]

@[simp] theorem sequencerInterval_arms (st : StandId) (arm : Arm) (w n : Nat) (s : State) : (sequencerInterval st arm w n s).arms = s.arms := by
  unfold sequencerInterval; (try dsimp only); (repeat' split) <;> simp [*]
@[simp] theorem sequencerInterval_outputs (st : StandId) (arm : Arm) (w n : Nat) (s : State) : (sequencerInterval st arm w n s).outputs = s.outputs := by
  unfold sequencerInterval; (try dsimp only); (repeat' split) <;> simp [*]
@[simp] theorem sequencerInterval_stands (st : StandId) (arm : Arm) (w n : Nat) (s : State) : (sequencerInterval st arm w n s).stands = s.stands := by
  unfold sequencerInterval; (try dsimp only); (repeat' split) <;> simp [*]
@[simp] theorem sequencerInterval_trackers (st : StandId) (arm : Arm) (w n : Nat) (s : State) : (sequencerInterval st arm w n s).trackers = s.trackers := by
  unfold sequencerInterval; (try dsimp only); (repeat' split) <;> simp [*]

@[simp] theorem sequencerWindowEnd_arms (st : StandId) (s : State) : (sequencerWindowEnd st s).arms = s.arms := by
  unfold sequencerWindowEnd; (try dsimp only); (repeat' split) <;> simp [*]
@[simp] theorem sequencerWindowEnd_outputs (st : StandId) (s : State) : (sequencerWindowEnd st s).outputs = s.outputs := by
  unfold sequencerWindowEnd; (try dsimp only); (repeat' split) <;> simp [*]
@[simp] theorem sequencerWindowEnd_stands (st : StandId) (s : State) : (sequencerWindowEnd st s).stands = s.stands := by
  unfold sequencerWindowEnd; (try dsimp only); (repeat' split) <;> simp [*]
@[simp] theorem sequencerWindowEnd_trackers (st : StandId) (s : State) : (sequencerWindowEnd st s).trackers = s.trackers := by
  unfold sequencerWindowEnd; (try dsimp only); (repeat' split) <;> simp [*]

@[simp] theorem fireOutput_arms (st : StandId) (x : OutputLine) (w : Nat) (s : State) : (fireOutput st x w s).arms = s.arms := by
  cases x <;> rfl
@[simp] theorem fireOutput_stands (st : StandId) (x : OutputLine) (w : Nat) (s : State) : (fireOutput st x w s).stands = s.stands := by
  cases x <;> rfl
@[simp] theorem fireOutput_trackers (st : StandId) (x : OutputLine) (w : Nat) (s : State) : (fireOutput st x w s).trackers = s.trackers := by
  cases x <;> rfl
@[simp] theorem fireOutput_reels (st : StandId) (x : OutputLine) (w : Nat) (s : State) : (fireOutput st x w s).reels = s.reels := by
  cases x <;> rfl
@[simp] theorem fireOutput_rows (st : StandId) (x : OutputLine) (w : Nat) (s : State) : (fireOutput st x w s).rows = s.rows := by
  cases x <;> rfl
@[simp] theorem fireOutput_schedules (st : StandId) (x : OutputLine) (w : Nat) (s : State) : (fireOutput st x w s).schedules = s.schedules := by
  cases x <;> rfl
@[simp] theorem fireOutput_sequencers (st : StandId) (x : OutputLine) (w : Nat) (s : State) : (fireOutput st x w s).sequencers = s.sequencers := by
  cases x <;> rfl
@[simp] theorem fireOutput_verifies (st : StandId) (x : OutputLine) (w : Nat) (s : State) : (fireOutput st x w s).verifies = s.verifies := by
  cases x <;> rfl
@[simp] theorem fireOutput_bus (st : StandId) (x : OutputLine) (w : Nat) (s : State) : (fireOutput st x w s).bus = s.bus := by
  cases x <;> rfl
@[simp] theorem fireOutput_port (st : StandId) (x : OutputLine) (w : Nat) (s : State) : (fireOutput st x w s).port = s.port := by
  cases x <;> rfl

@[simp] theorem expireOld_arms (row : OrderRow) (n : Option Nat) (s : State) : (expireOld row n s).arms = s.arms := by
  unfold expireOld; (try dsimp only); (repeat' split) <;> simp [*]
@[simp] theorem expireOld_outputs (row : OrderRow) (n : Option Nat) (s : State) : (expireOld row n s).outputs = s.outputs := by
  unfold expireOld; (try dsimp only); (repeat' split) <;> simp [*]
@[simp] theorem expireOld_stands (row : OrderRow) (n : Option Nat) (s : State) : (expireOld row n s).stands = s.stands := by
  unfold expireOld; (try dsimp only); (repeat' split) <;> simp [*]
@[simp] theorem expireOld_trackers (row : OrderRow) (n : Option Nat) (s : State) : (expireOld row n s).trackers = s.trackers := by
  unfold expireOld; (try dsimp only); (repeat' split) <;> simp [*]

@[simp] theorem runNew_arms (st : StandId) (row : OrderRow) (arm : Arm) (c : Option Nat) (s : State) : (runNew st row arm c s).arms = s.arms := by
  unfold runNew; (try dsimp only); (repeat' split) <;> simp [*]
@[simp] theorem runNew_outputs (st : StandId) (row : OrderRow) (arm : Arm) (c : Option Nat) (s : State) : (runNew st row arm c s).outputs = s.outputs := by
  unfold runNew; (try dsimp only); (repeat' split) <;> simp [*]
@[simp] theorem runNew_stands (st : StandId) (row : OrderRow) (arm : Arm) (c : Option Nat) (s : State) : (runNew st row arm c s).stands = s.stands := by
  unfold runNew; (try dsimp only); (repeat' split) <;> simp [*]

@[simp] theorem queueBraking_arms (st : StandId) (q : Sequencer) (s : State) : (queueBraking st q s).arms = s.arms := by
  unfold queueBraking; (try dsimp only); (repeat' split) <;> simp [*]
@[simp] theorem queueBraking_outputs (st : StandId) (q : Sequencer) (s : State) : (queueBraking st q s).outputs = s.outputs := by
  unfold queueBraking; (try dsimp only); (repeat' split) <;> simp [*]
@[simp] theorem queueBraking_stands (st : StandId) (q : Sequencer) (s : State) : (queueBraking st q s).stands = s.stands := by
  unfold queueBraking; (try dsimp only); (repeat' split) <;> simp [*]
@[simp] theorem queueBraking_trackers (st : StandId) (q : Sequencer) (s : State) : (queueBraking st q s).trackers = s.trackers := by
  unfold queueBraking; (try dsimp only); (repeat' split) <;> simp [*]

@[simp] theorem fireKnife_arms (st : StandId) (s : State) : (fireKnife st s).arms = s.arms := by
  unfold fireKnife; (try dsimp only); (repeat' split) <;> simp [*]
@[simp] theorem fireKnife_stands (st : StandId) (s : State) : (fireKnife st s).stands = s.stands := by
  unfold fireKnife; (try dsimp only); (repeat' split) <;> simp [*]

@[simp] theorem firePaste_arms (st : StandId) (s : State) : (firePaste st s).arms = s.arms := by
  unfold firePaste; (try dsimp only); (repeat' split) <;> simp [*]
@[simp] theorem firePaste_stands (st : StandId) (s : State) : (firePaste st s).stands = s.stands := by
  unfold firePaste; (try dsimp only); (repeat' split) <;> simp [*]

@[simp] theorem startPasting_arms (st : StandId) (q : Sequencer) (w : Nat) (p : Pos) (c : Commitment) (s : State) : (startPasting st q w p c s).arms = s.arms := by
  unfold startPasting; (try dsimp only); (repeat' split) <;> simp [*]
@[simp] theorem startPasting_stands (st : StandId) (q : Sequencer) (w : Nat) (p : Pos) (c : Commitment) (s : State) : (startPasting st q w p c s).stands = s.stands := by
  unfold startPasting; (try dsimp only); (repeat' split) <;> simp [*]

@[simp] theorem sequencerTape_arms (st : StandId) (arm : Arm) (p : Pos) (s : State) : (sequencerTape st arm p s).arms = s.arms := by
  unfold sequencerTape; (try dsimp only); (repeat' split) <;> simp [*]
@[simp] theorem sequencerTape_stands (st : StandId) (arm : Arm) (p : Pos) (s : State) : (sequencerTape st arm p s).stands = s.stands := by
  unfold sequencerTape; (try dsimp only); (repeat' split) <;> simp [*]

@[simp] theorem tryCloseDone_arms (st : StandId) (s : State) : (tryCloseDone st s).arms = s.arms := by
  unfold tryCloseDone; (try dsimp only); (repeat' split) <;> simp [*]
@[simp] theorem tryCloseDone_outputs (st : StandId) (s : State) : (tryCloseDone st s).outputs = s.outputs := by
  unfold tryCloseDone; (try dsimp only); (repeat' split) <;> simp [*]
@[simp] theorem tryCloseDone_stands (st : StandId) (s : State) : (tryCloseDone st s).stands = s.stands := by
  unfold tryCloseDone; (try dsimp only); (repeat' split) <;> simp [*]
@[simp] theorem tryCloseDone_trackers (st : StandId) (s : State) : (tryCloseDone st s).trackers = s.trackers := by
  unfold tryCloseDone; (try dsimp only); (repeat' split) <;> simp [*]

@[simp] theorem endRetract_arms (st : StandId) (s : State) : (endRetract st s).arms = s.arms := by
  unfold endRetract; (try dsimp only); (repeat' split) <;> simp [*]
@[simp] theorem endRetract_outputs (st : StandId) (s : State) : (endRetract st s).outputs = s.outputs := by
  unfold endRetract; (try dsimp only); (repeat' split) <;> simp [*]
@[simp] theorem endRetract_stands (st : StandId) (s : State) : (endRetract st s).stands = s.stands := by
  unfold endRetract; (try dsimp only); (repeat' split) <;> simp [*]
@[simp] theorem endRetract_trackers (st : StandId) (s : State) : (endRetract st s).trackers = s.trackers := by
  unfold endRetract; (try dsimp only); (repeat' split) <;> simp [*]

@[simp] theorem endRetractWait_arms (st : StandId) (s : State) : (endRetractWait st s).arms = s.arms := by
  unfold endRetractWait; split <;> simp
@[simp] theorem endRetractWait_outputs (st : StandId) (s : State) : (endRetractWait st s).outputs = s.outputs := by
  unfold endRetractWait; split <;> simp
@[simp] theorem endRetractWait_trackers (st : StandId) (s : State) : (endRetractWait st s).trackers = s.trackers := by
  unfold endRetractWait; split <;> simp

/-- Once RETRACT has ended, the end of the retract wait stops the wait and has no more effect (R123). -/
theorem endRetractWait_ended (st : StandId) (s : State) (h : awaitsRetract s st = false) :
    endRetractWait st s = modSequencer st (fun q => { q with retractWait := none }) s := by
  simp [endRetractWait, h]

@[simp] theorem markFaultAfterPaste_arms (st : StandId) (s : State) : (markFaultAfterPaste st s).arms = s.arms := by
  unfold markFaultAfterPaste; (try dsimp only); (repeat' split) <;> simp [*]
@[simp] theorem markFaultAfterPaste_outputs (st : StandId) (s : State) : (markFaultAfterPaste st s).outputs = s.outputs := by
  unfold markFaultAfterPaste; (try dsimp only); (repeat' split) <;> simp [*]
@[simp] theorem markFaultAfterPaste_stands (st : StandId) (s : State) : (markFaultAfterPaste st s).stands = s.stands := by
  unfold markFaultAfterPaste; (try dsimp only); (repeat' split) <;> simp [*]
@[simp] theorem markFaultAfterPaste_trackers (st : StandId) (s : State) : (markFaultAfterPaste st s).trackers = s.trackers := by
  unfold markFaultAfterPaste; (try dsimp only); (repeat' split) <;> simp [*]

@[simp] theorem faultOrder_arms (st : StandId) (why : OrderReason) (s : State) : (faultOrder st why s).arms = s.arms := by
  unfold faultOrder; (try dsimp only); (repeat' split) <;> simp [*]
@[simp] theorem faultOrder_outputs (st : StandId) (why : OrderReason) (s : State) : (faultOrder st why s).outputs = s.outputs := by
  unfold faultOrder; (try dsimp only); (repeat' split) <;> simp [*]
@[simp] theorem faultOrder_stands (st : StandId) (why : OrderReason) (s : State) : (faultOrder st why s).stands = s.stands := by
  unfold faultOrder; (try dsimp only); (repeat' split) <;> simp [*]
@[simp] theorem faultOrder_trackers (st : StandId) (why : OrderReason) (s : State) : (faultOrder st why s).trackers = s.trackers := by
  unfold faultOrder; (try dsimp only); (repeat' split) <;> simp [*]

@[simp] theorem modStand_arms (st : StandId) (f : StandContext → StandContext) (s : State) : (modStand st f s).arms = s.arms := by
  unfold modStand; (try dsimp only); (repeat' split) <;> simp [*]
@[simp] theorem modStand_outputs (st : StandId) (f : StandContext → StandContext) (s : State) : (modStand st f s).outputs = s.outputs := by
  unfold modStand; (try dsimp only); (repeat' split) <;> simp [*]
@[simp] theorem modStand_trackers (st : StandId) (f : StandContext → StandContext) (s : State) : (modStand st f s).trackers = s.trackers := by
  unfold modStand; (try dsimp only); (repeat' split) <;> simp [*]
@[simp] theorem modStand_bus (st : StandId) (f : StandContext → StandContext) (s : State) : (modStand st f s).bus = s.bus := by
  unfold modStand; (try dsimp only); (repeat' split) <;> simp [*]
@[simp] theorem modStand_rows (st : StandId) (f : StandContext → StandContext) (s : State) : (modStand st f s).rows = s.rows := by
  unfold modStand; (try dsimp only); (repeat' split) <;> simp [*]
@[simp] theorem modStand_reels (st : StandId) (f : StandContext → StandContext) (s : State) : (modStand st f s).reels = s.reels := by
  unfold modStand; (try dsimp only); (repeat' split) <;> simp [*]
@[simp] theorem modStand_schedules (st : StandId) (f : StandContext → StandContext) (s : State) : (modStand st f s).schedules = s.schedules := by
  unfold modStand; (try dsimp only); (repeat' split) <;> simp [*]
@[simp] theorem modStand_sequencers (st : StandId) (f : StandContext → StandContext) (s : State) : (modStand st f s).sequencers = s.sequencers := by
  unfold modStand; (try dsimp only); (repeat' split) <;> simp [*]
@[simp] theorem modStand_verifies (st : StandId) (f : StandContext → StandContext) (s : State) : (modStand st f s).verifies = s.verifies := by
  unfold modStand; (try dsimp only); (repeat' split) <;> simp [*]
@[simp] theorem modStand_port (st : StandId) (f : StandContext → StandContext) (s : State) : (modStand st f s).port = s.port := by
  unfold modStand; (try dsimp only); (repeat' split) <;> simp [*]

@[simp] theorem leaveService_arms (st : StandId) (c : Condition) (why : OrderReason) (s : State) : (leaveService st c why s).arms = s.arms := by
  unfold leaveService; (try dsimp only); (repeat' split) <;> simp [*]
@[simp] theorem leaveService_outputs (st : StandId) (c : Condition) (why : OrderReason) (s : State) : (leaveService st c why s).outputs = s.outputs := by
  unfold leaveService; (try dsimp only); (repeat' split) <;> simp [*]
@[simp] theorem leaveService_trackers (st : StandId) (c : Condition) (why : OrderReason) (s : State) : (leaveService st c why s).trackers = s.trackers := by
  unfold leaveService; (try dsimp only); (repeat' split) <;> simp [*]

@[simp] theorem takeHardError_arms (st : StandId) (e : HardError) (s : State) : (takeHardError st e s).arms = s.arms := by
  unfold takeHardError; (try dsimp only); (repeat' split) <;> simp [*]
@[simp] theorem takeHardError_outputs (st : StandId) (e : HardError) (s : State) : (takeHardError st e s).outputs = s.outputs := by
  unfold takeHardError; (try dsimp only); (repeat' split) <;> simp [*]
@[simp] theorem takeHardError_trackers (st : StandId) (e : HardError) (s : State) : (takeHardError st e s).trackers = s.trackers := by
  unfold takeHardError; (try dsimp only); (repeat' split) <;> simp [*]

@[simp] theorem goOnline_arms (st : StandId) (r : SlotReading) (s : State) : (goOnline st r s).arms = s.arms := by
  unfold goOnline; (try dsimp only); (repeat' split) <;> simp [*]
@[simp] theorem goOnline_outputs (st : StandId) (r : SlotReading) (s : State) : (goOnline st r s).outputs = s.outputs := by
  unfold goOnline; (try dsimp only); (repeat' split) <;> simp [*]
@[simp] theorem goOnline_trackers (st : StandId) (r : SlotReading) (s : State) : (goOnline st r s).trackers = s.trackers := by
  unfold goOnline; (try dsimp only); (repeat' split) <;> simp [*]

@[simp] theorem readPresent_arms (st : StandId) (r : SlotReading) (s : State) : (readPresent st r s).arms = s.arms := by
  unfold readPresent; (try dsimp only); (repeat' split) <;> simp [*]
@[simp] theorem readPresent_outputs (st : StandId) (r : SlotReading) (s : State) : (readPresent st r s).outputs = s.outputs := by
  unfold readPresent; (try dsimp only); (repeat' split) <;> simp [*]
@[simp] theorem readPresent_trackers (st : StandId) (r : SlotReading) (s : State) : (readPresent st r s).trackers = s.trackers := by
  unfold readPresent; (try dsimp only); (repeat' split) <;> simp [*]

@[simp] theorem readUnsafe_arms (st : StandId) (r : SlotReading) (s : State) : (readUnsafe st r s).arms = s.arms := by
  unfold readUnsafe; (try dsimp only); (repeat' split) <;> simp [*]
@[simp] theorem readUnsafe_outputs (st : StandId) (r : SlotReading) (s : State) : (readUnsafe st r s).outputs = s.outputs := by
  unfold readUnsafe; (try dsimp only); (repeat' split) <;> simp [*]
@[simp] theorem readUnsafe_trackers (st : StandId) (r : SlotReading) (s : State) : (readUnsafe st r s).trackers = s.trackers := by
  unfold readUnsafe; (try dsimp only); (repeat' split) <;> simp [*]

@[simp] theorem readStopHeld_arms (st : StandId) (r : SlotReading) (s : State) : (readStopHeld st r s).arms = s.arms := by
  unfold readStopHeld; (try dsimp only); (repeat' split) <;> simp [*]
@[simp] theorem readStopHeld_outputs (st : StandId) (r : SlotReading) (s : State) : (readStopHeld st r s).outputs = s.outputs := by
  unfold readStopHeld; (try dsimp only); (repeat' split) <;> simp [*]
@[simp] theorem readStopHeld_trackers (st : StandId) (r : SlotReading) (s : State) : (readStopHeld st r s).trackers = s.trackers := by
  unfold readStopHeld; (try dsimp only); (repeat' split) <;> simp [*]

@[simp] theorem takeReading_arms (st : StandId) (r : SlotReading) (s : State) : (takeReading st r s).arms = s.arms := by
  unfold takeReading; (try dsimp only); (repeat' split) <;> simp [*]
@[simp] theorem takeReading_outputs (st : StandId) (r : SlotReading) (s : State) : (takeReading st r s).outputs = s.outputs := by
  unfold takeReading; (try dsimp only); (repeat' split) <;> simp [*]
@[simp] theorem takeReading_trackers (st : StandId) (r : SlotReading) (s : State) : (takeReading st r s).trackers = s.trackers := by
  unfold takeReading; (try dsimp only); (repeat' split) <;> simp [*]

@[simp] theorem endRunOf_arms (st : StandId) (n : Nat) (s : State) : (endRunOf st n s).arms = s.arms := by
  unfold endRunOf; (try dsimp only); (repeat' split) <;> simp [*]
@[simp] theorem endRunOf_outputs (st : StandId) (n : Nat) (s : State) : (endRunOf st n s).outputs = s.outputs := by
  unfold endRunOf; (try dsimp only); (repeat' split) <;> simp [*]
@[simp] theorem endRunOf_stands (st : StandId) (n : Nat) (s : State) : (endRunOf st n s).stands = s.stands := by
  unfold endRunOf; (try dsimp only); (repeat' split) <;> simp [*]
@[simp] theorem endRunOf_trackers (st : StandId) (n : Nat) (s : State) : (endRunOf st n s).trackers = s.trackers := by
  unfold endRunOf; (try dsimp only); (repeat' split) <;> simp [*]

@[simp] theorem newReelRemoved_arms (tag : Option Nat) (s : State) : (newReelRemoved tag s).arms = s.arms := by
  unfold newReelRemoved; (try dsimp only); (repeat' split) <;> simp [*]
@[simp] theorem newReelRemoved_outputs (tag : Option Nat) (s : State) : (newReelRemoved tag s).outputs = s.outputs := by
  unfold newReelRemoved; (try dsimp only); (repeat' split) <;> simp [*]
@[simp] theorem newReelRemoved_stands (tag : Option Nat) (s : State) : (newReelRemoved tag s).stands = s.stands := by
  unfold newReelRemoved; (try dsimp only); (repeat' split) <;> simp [*]
@[simp] theorem newReelRemoved_trackers (tag : Option Nat) (s : State) : (newReelRemoved tag s).trackers = s.trackers := by
  unfold newReelRemoved; (try dsimp only); (repeat' split) <;> simp [*]

@[simp] theorem reelEmptied_arms (st : StandId) (arm : Arm) (s : State) : (reelEmptied st arm s).1.arms = s.arms := by
  unfold reelEmptied; (try dsimp only); (repeat' split) <;> simp [*]
@[simp] theorem reelEmptied_outputs (st : StandId) (arm : Arm) (s : State) : (reelEmptied st arm s).1.outputs = s.outputs := by
  unfold reelEmptied; (try dsimp only); (repeat' split) <;> simp [*]
@[simp] theorem reelEmptied_stands (st : StandId) (arm : Arm) (s : State) : (reelEmptied st arm s).1.stands = s.stands := by
  unfold reelEmptied; (try dsimp only); (repeat' split) <;> simp [*]

@[simp] theorem setLoaded_arms (st : StandId) (arm : Arm) (b : Bool) (s : State) : (setLoaded st arm b s).arms = s.arms := by
  unfold setLoaded; (try dsimp only); (repeat' split) <;> simp [*]
@[simp] theorem setLoaded_outputs (st : StandId) (arm : Arm) (b : Bool) (s : State) : (setLoaded st arm b s).outputs = s.outputs := by
  unfold setLoaded; (try dsimp only); (repeat' split) <;> simp [*]
@[simp] theorem setLoaded_trackers (st : StandId) (arm : Arm) (b : Bool) (s : State) : (setLoaded st arm b s).trackers = s.trackers := by
  unfold setLoaded; (try dsimp only); (repeat' split) <;> simp [*]
@[simp] theorem setLoaded_bus (st : StandId) (arm : Arm) (b : Bool) (s : State) : (setLoaded st arm b s).bus = s.bus := by
  unfold setLoaded; (try dsimp only); (repeat' split) <;> simp [*]
@[simp] theorem setLoaded_rows (st : StandId) (arm : Arm) (b : Bool) (s : State) : (setLoaded st arm b s).rows = s.rows := by
  unfold setLoaded; (try dsimp only); (repeat' split) <;> simp [*]
@[simp] theorem setLoaded_reels (st : StandId) (arm : Arm) (b : Bool) (s : State) : (setLoaded st arm b s).reels = s.reels := by
  unfold setLoaded; (try dsimp only); (repeat' split) <;> simp [*]
@[simp] theorem setLoaded_schedules (st : StandId) (arm : Arm) (b : Bool) (s : State) : (setLoaded st arm b s).schedules = s.schedules := by
  unfold setLoaded; (try dsimp only); (repeat' split) <;> simp [*]
@[simp] theorem setLoaded_sequencers (st : StandId) (arm : Arm) (b : Bool) (s : State) : (setLoaded st arm b s).sequencers = s.sequencers := by
  unfold setLoaded; (try dsimp only); (repeat' split) <;> simp [*]
@[simp] theorem setLoaded_verifies (st : StandId) (arm : Arm) (b : Bool) (s : State) : (setLoaded st arm b s).verifies = s.verifies := by
  unfold setLoaded; (try dsimp only); (repeat' split) <;> simp [*]
@[simp] theorem setLoaded_port (st : StandId) (arm : Arm) (b : Bool) (s : State) : (setLoaded st arm b s).port = s.port := by
  unfold setLoaded; (try dsimp only); (repeat' split) <;> simp [*]

@[simp] theorem armReportedEmpty_arms (st : StandId) (arm : Arm) (s : State) : (armReportedEmpty st arm s).arms = s.arms := by
  unfold armReportedEmpty; (try dsimp only); (repeat' split) <;> simp [*]
@[simp] theorem armReportedEmpty_outputs (st : StandId) (arm : Arm) (s : State) : (armReportedEmpty st arm s).outputs = s.outputs := by
  unfold armReportedEmpty; (try dsimp only); (repeat' split) <;> simp [*]

@[simp] theorem clearTapeCounts_outputs (st : StandId) (s : State) : (clearTapeCounts st s).outputs = s.outputs := by
  unfold clearTapeCounts; (try dsimp only); (repeat' split) <;> simp [*]
@[simp] theorem clearTapeCounts_stands (st : StandId) (s : State) : (clearTapeCounts st s).stands = s.stands := by
  unfold clearTapeCounts; (try dsimp only); (repeat' split) <;> simp [*]
@[simp] theorem clearTapeCounts_trackers (st : StandId) (s : State) : (clearTapeCounts st s).trackers = s.trackers := by
  unfold clearTapeCounts; (try dsimp only); (repeat' split) <;> simp [*]

@[simp] theorem adoptMap_outputs (st : StandId) (m : PerArm SpiderPos) (s : State) : (adoptMap st m s).outputs = s.outputs := by
  unfold adoptMap; (try dsimp only); (repeat' split) <;> simp [*]
@[simp] theorem adoptMap_trackers (st : StandId) (m : PerArm SpiderPos) (s : State) : (adoptMap st m s).trackers = s.trackers := by
  unfold adoptMap; (try dsimp only); (repeat' split) <;> simp [*]

@[simp] theorem takeArmStatus_arms (st : StandId) (arm : Arm) (x : ArmStatus) (s : State) : (takeArmStatus st arm x s).arms = s.arms := by
  unfold takeArmStatus; (try dsimp only); (repeat' split) <;> simp [*]
@[simp] theorem takeArmStatus_outputs (st : StandId) (arm : Arm) (x : ArmStatus) (s : State) : (takeArmStatus st arm x s).outputs = s.outputs := by
  unfold takeArmStatus; (try dsimp only); (repeat' split) <;> simp [*]

@[simp] theorem takeStatus_outputs (st : StandId) (x y z : ArmStatus) (s : State) : (takeStatus st x y z s).outputs = s.outputs := by
  unfold takeStatus; (try dsimp only); (repeat' split) <;> simp [*]

@[simp] theorem takeIndexDone_outputs (st : StandId) (m : PerArm SpiderPos) (s : State) : (takeIndexDone st m s).outputs = s.outputs := by
  unfold takeIndexDone; (try dsimp only); (repeat' split) <;> simp [*]
@[simp] theorem takeIndexDone_trackers (st : StandId) (m : PerArm SpiderPos) (s : State) : (takeIndexDone st m s).trackers = s.trackers := by
  unfold takeIndexDone; (try dsimp only); (repeat' split) <;> simp [*]

/-! ## Position reports -/

@[simp] theorem reportCommitPoint_stands (r : RowId) (s : State) : (reportCommitPoint r s).stands = s.stands := by
  unfold reportCommitPoint; split <;> simp
@[simp] theorem reportLatest_stands (r : RowId) (s : State) : (reportLatest r s).stands = s.stands := by
  unfold reportLatest; dsimp only; split <;> simp
@[simp] theorem reportDeadline_stands (st : StandId) (s : State) : (reportDeadline st s).stands = s.stands := by
  unfold reportDeadline; split <;> simp
@[simp] theorem reportPaste_stands (st : StandId) (s : State) : (reportPaste st s).stands = s.stands := by
  unfold reportPaste; split <;> simp
@[simp] theorem reportKnife_stands (st : StandId) (s : State) : (reportKnife st s).stands = s.stands := by
  unfold reportKnife; split <;> simp
@[simp] theorem reportStale_stands (st : StandId) (arm : Arm) (s : State) :
    (reportStale st arm s).stands = s.stands := by
  unfold reportStale; split <;> rfl

/-- A part of the state that every element of a fold leaves, the fold leaves. -/
theorem foldl_same {α β : Type} (part : State → β) (f : State → α → State) (hf : ∀ u a, part (f u a) = part u)
    (xs : List α) (s : State) : part (xs.foldl f s) = part s := by
  induction xs generalizing s with
  | nil => rfl
  | cons x xs ih => exact (ih _).trans (hf s x)

/-- A fold whose every element leaves the state leaves it. -/
theorem foldl_eq_self {α : Type} (f : State → α → State) (xs : List α) (s : State)
    (hf : ∀ x ∈ xs, f s x = s) : xs.foldl f s = s := by
  induction xs with
  | nil => rfl
  | cons x xs ih =>
    rw [List.foldl_cons, hf x (List.mem_cons_self ..)]
    exact ih fun y hy => hf y (List.mem_cons_of_mem _ hy)

/-- A part of the state that every report of a kind leaves, the reports of the kind leave. -/
theorem reportAll_same {α β : Type} (part : State → β) (later : List Instr) (c : α → Instr)
    (f : α → State → State) (hf : ∀ x u, part (f x u) = part u) (xs : List α) (s : State) :
    part (reportAll later c f xs s) = part s := foldl_same part _ (fun u x => hf x u) _ s

/-- Reports of which each is named to be taken later, or changes nothing, change nothing. -/
theorem reportAll_eq_self {α : Type} (later : List Instr) (c : α → Instr) (f : α → State → State)
    (xs : List α) (s : State) (h : ∀ x ∈ xs, c x ∉ later → f x s = s) : reportAll later c f xs s = s :=
  foldl_eq_self _ _ s fun x hx => h x (List.mem_filter.1 hx).1 (by simpa using (List.mem_filter.1 hx).2)

/-- The reports of a line leave every stand context (R2). -/
theorem reportLine_stands (l : LineId) (later : List Instr) (s : State) :
    (reportLine l later s).stands = s.stands := by
  unfold reportLine
  dsimp only
  simp only [reportAll_same (·.stands), reportStale_stands, reportKnife_stands, reportPaste_stands,
    reportDeadline_stands, reportLatest_stands, reportCommitPoint_stands, implies_true]

/-- With no watch of a line due but those named to be taken later, its reports change nothing. -/
theorem reportLine_eq_self {l : LineId} {later : List Instr} {s : State} (h : NoneDue l later s) :
    reportLine l later s = s := by
  have row : ∀ r ∈ rowsOf s l, (vget s.rows r).map (fun row => lineOf s row.stand) = some l := by
    intro r hr
    cases e : vget s.rows r <;> simp_all [rowsOf]
  have line : ∀ st ∈ standsOf s l, some (lineOf s st) = some l := fun st hst => by
    simpa [standsOf] using (List.mem_filter.1 hst).2
  unfold reportLine
  dsimp only
  rw [reportAll_eq_self _ _ _ _ s fun r hr n => by
      have := h _ n (row r hr); simp_all [reportCommitPoint, watchDue],
    reportAll_eq_self _ _ _ _ s fun r hr n => by
      have := h _ n (row r hr); simp_all [reportLatest, watchDue],
    reportAll_eq_self _ _ _ _ s fun st hst n => by
      have := h _ n (line st hst); simp_all [reportDeadline, watchDue],
    reportAll_eq_self _ _ _ _ s fun st hst n => by
      have := h _ n (line st hst); simp_all [reportPaste, watchDue],
    reportAll_eq_self _ _ _ _ s fun st hst n => by
      have := h _ n (line st hst); simp_all [reportKnife, watchDue],
    reportAll_eq_self _ _ _ _ s fun x hx n => by
      obtain ⟨st, hst, arm, -, rfl⟩ : ∃ st ∈ standsOf s l, ∃ arm ∈ allArms, (st, arm) = x := by
        simpa [armsOf] using hx
      have := h _ n (line st hst); simp_all [reportStale, watchDue]]

/-! ## The line counter -/

@[simp] theorem pulse_position (c : LineCounter) : (pulse c).position = c.position + 1 := rfl
@[simp] theorem pulse_windowCount (c : LineCounter) : (pulse c).windowCount = c.windowCount + 1 := rfl
@[simp] theorem pulse_speed (c : LineCounter) : (pulse c).speed = c.speed := rfl
@[simp] theorem pulse_overspeed (c : LineCounter) : (pulse c).overspeed = c.overspeed := rfl
@[simp] theorem pulse_windowEnd (c : LineCounter) : (pulse c).windowEnd = c.windowEnd := rfl
@[simp] theorem endWindow_position (c : LineCounter) : (endWindow c).position = c.position := rfl
@[simp] theorem endWindow_windowCount (c : LineCounter) : (endWindow c).windowCount = 0 := rfl
@[simp] theorem endWindow_windowEnd (c : LineCounter) : (endWindow c).windowEnd = c.windowEnd + 10 := rfl
@[simp] theorem endWindow_speed (c : LineCounter) :
    (endWindow c).speed = min (100 * c.windowCount) 200000 := rfl
@[simp] theorem endWindow_overspeed (c : LineCounter) :
    (endWindow c).overspeed = decide (200000 < 100 * c.windowCount) := rfl

/-! ## What an evaluation leaves of a row that does not wait -/

section Rows

variable {s : State} {r r' : RowId}

theorem setRow_rows_ne (x : Option OrderRow) (h : r' ≠ r) :
    vget (setRow s r x).rows r' = vget s.rows r' := by simp [vget_vset, h]

theorem closeRow_rows_ne (x : OrderState) (why : Option OrderReason) (d : Option DoneResults) (b : Bool)
    (h : r' ≠ r) : vget (closeRow r x why d b s).1.rows r' = vget s.rows r' := by
  unfold closeRow; dsimp only; (repeat' split) <;> simp [vget_vset, h]

theorem commitRow_rows_ne (row : OrderRow) (p : Placement) (a : Nat) (b : Bool) (h : r' ≠ r) :
    vget (commitRow r row p a b s).1.rows r' = vget s.rows r' := by
  unfold commitRow; simp [vget_vset, h]

theorem commitTest_rows_ne (h : r' ≠ r) : vget (commitTest r s).1.rows r' = vget s.rows r' := by
  unfold commitTest; dsimp only; (repeat' split) <;>
    simp [vget_vset, h, closeRow_rows_ne, commitRow_rows_ne]

theorem latestReport_rows_ne (h : r' ≠ r) : vget (latestReport r s).1.rows r' = vget s.rows r' := by
  unfold latestReport; (repeat' split) <;> simp [h, closeRow_rows_ne, commitTest_rows_ne]

/-- A hand-off leaves a row that does not wait as it is (R73). -/
theorem handOff_rows {l : LineId} {acc : State × Nat} {e : Entry} {row : OrderRow}
    (h : vget acc.1.rows r = some row) (hw : row.state.waiting = false) :
    vget (handOff l acc e).1.rows r = some row := by
  by_cases he : r = e.row
  · subst he
    obtain ⟨t, n⟩ := acc
    dsimp only at h
    simp [handOff, h, hw]
  · rw [← h]
    unfold handOff; dsimp only; (repeat' split) <;>
      simp [vget_vset, he, commitTest_rows_ne, latestReport_rows_ne]

theorem handOffs_rows {l : LineId} (es : List Entry) {acc : State × Nat} {row : OrderRow}
    (h : vget acc.1.rows r = some row) (hw : row.state.waiting = false) :
    vget (es.foldl (handOff l) acc).1.rows r = some row := by
  induction es generalizing acc with
  | nil => exact h
  | cons e es ih => exact ih (handOff_rows h hw)

theorem evalRounds_rows {l : LineId} (n d : Nat) {row : OrderRow} (h : vget s.rows r = some row)
    (hw : row.state.waiting = false) : vget (evalRounds n d l s).rows r = some row := by
  induction n generalizing d s with
  | zero => exact h
  | succ n ih =>
    cases d with
    | zero => exact h
    | succ d =>
      refine ih (d := d + (evalOnce l s).2) ?_
      unfold evalOnce
      dsimp only
      apply handOffs_rows _ _ hw
      dsimp only
      split <;> simpa using h

/-- An evaluation, and those it causes, leave a row that does not wait as it is. -/
theorem settle_rows {l : LineId} {n : Nat} {row : OrderRow} (h : vget s.rows r = some row)
    (hw : row.state.waiting = false) : vget (settle l n s).rows r = some row := evalRounds_rows _ _ h hw

end Rows

/-! ## The arbiter -/

/-- The arbiter touches the controller alone. -/
theorem arbitrate_bus (s : State) : arbitrate s = setBus s (arbitrate s).bus := by
  unfold arbitrate requestTurn grantTurn
  (repeat' split) <;> rfl

theorem mem_cyclic (st x : StandId) : x ∈ cyclic st := by
  revert st x; decide

/-- After the arbiter's choice nothing waits on a FREE pair (R140). -/
theorem arbitrate_nothingWaits (s : State) : NothingWaits (arbitrate s) := by
  have find : ∀ (p : StandId) (f : StandId → Bool), (indices 8).any f = true →
      ∃ st, (cyclic p).find? f = some st ∧ f st = true := by
    intro p f h
    obtain ⟨x, -, hx⟩ := List.any_eq_true.1 h
    cases e : (cyclic p).find? f with
    | none => exact absurd hx (by simpa using List.find?_eq_none.1 e x (mem_cyclic p x))
    | some st => exact ⟨st, rfl, List.find?_some e⟩
  have request : (indices 8).any (sendable s) = true → (requestTurn s).bus.pair ≠ .free := by
    intro h
    obtain ⟨st, e, hs⟩ := find s.bus.requestPtr _ h
    unfold requestTurn
    rw [e]
    dsimp only
    split
    · next hq => simp [sendable, hq] at hs
    · simp
  have grant : anyBid s = true → (grantTurn s).bus.pair ≠ .free := by
    intro h
    obtain ⟨st, e, -⟩ := find s.bus.grantPtr _ h
    unfold grantTurn
    rw [e]
    simp
  intro hp
  unfold arbitrate at hp ⊢
  split at hp
  · split at hp
    · next hb => exact absurd hp (grant (by simp_all))
    · split at hp
      · next hs => exact absurd hp (request hs)
      · split at hp
        · next hb => exact absurd hp (grant hb)
        · next h1 h2 h3 =>
          intro st
          simp only [h2, h3, if_false, Bool.false_eq_true]
          simp only [Bool.not_eq_true, List.any_eq_false] at h2 h3
          simp only [anyBid, List.any_eq_false] at h3
          have a := h2 st (mem_indices _)
          have b := h3 st (mem_indices _)
          simp [sendable] at a b ⊢
          simp_all
  · next h => exact absurd hp (by simpa using h)

/-- With nothing waiting the arbiter makes no turn. -/
theorem arbitrate_eq_self {s : State} (h : NothingWaits s) : arbitrate s = s := by
  unfold arbitrate
  split
  · next hp =>
    have hq := h hp
    have h2 : (indices 8).any (sendable s) = false := by simp [sendable, (hq _).1]
    have h3 : anyBid s = false := by simp [anyBid, (hq _).2]
    simp [h2, h3]
  · rfl

end Sys2Proof.Machine
end

