-- ==== Sys2Proof/Tests/Slice0.lean ====
section
/-! SUPPORT. Tests of one step each, against figures worked in the manual or by hand from its rules, and for
each statement of Certificates/Slice0/Obligations.lean with hypotheses a state and operands that meet them. -/

namespace Sys2Proof.Tests

open Sys2Proof Sys2Proof.Machine

set_option Elab.async false

/-! ## Small states -/

/-- The state after a command. -/
def after (c : Instr) (s : State) : State := match exec c s with | .next t => t | _ => s

/-- RESET is released and the first scan runs. -/
def up : State := { State.reset with resetHeld := false, bus := { resetBus with scan := some 0 } }

/-- A record of stand 1 as entered, with the given number, state, arm and outside circumference. -/
def rec1 (n : Nat) (x : ReelState) (arm : Option Arm) (outside : Option Nat) : ReelRecord :=
  ⟨n, 0, 310, x, arm, 3770, outside, some 60, none, none, none, .untested, false, false, false, none⟩

/-- The running reel of "Worked sequence: a learned reel" after its sample at 200,000,000. -/
def oldReel : ReelRecord :=
  { rec1 88114 .running (some .a) none with current := some 20000, remaining := some 51438280 }

/-- The new reel of "Worked sequence: a splice from commit to close". -/
def newReel : ReelRecord := { rec1 90021 .ready (some .b) (some 38000) with verify := .passed }

/-- Its tracker (the count of its samples plays no part here). -/
def tracker1 : Tracker :=
  ⟨.tracking, 88114, .a, [20118], some 20118, false, 0, none, some ⟨200000000, 51438280⟩, false, some 60, false⟩

/-- Stand 1 ONLINE on line 1 with arm A at RUN, B at SPLICE and C at LOAD, at the given line position. -/
def yard (p : Pos) : State := { up with
  lines := vset up.lines 0 ⟨p, 0, 120000, false, 10⟩
  stands := vset up.stands 0 { resetStand with
    condition := .online, map := some ⟨.run, .splice, .load⟩, loaded := perArm true }
  reels := vset (vset (vset up.reels 0 (some oldReel)) 1 (some newReel)) 2
    (some (rec1 70412 .staged none none))
  trackers := vset up.trackers 0 (some tracker1) }

/-- Stand 1 in a grant exchange. -/
def onGrant (s : State) : State := { s with bus := { s.bus with pair := .grant 0 20 } }

/-- The settings of the splice sequence: T_arm 150 ms, theta 900, K 3,000. -/
def spliceFrozen : Frozen := ⟨150, 900, 3000, 5, 1, 40⟩

/-- The order of "Worked sequence: a splice from commit to close" in row 5, in a given state. -/
def order (x : OrderState) : OrderRow :=
  ⟨12, 0, x, 88114, 90021, .b, true, false, some ⟨251038280, 251288280, 251038280⟩, some 1554000,
    none, none, false, false, false, none, none⟩

/-- Its commit. -/
def commitment : Commitment := ⟨249600000, spliceFrozen, 251212280, 0⟩

/-- Its fire positions. -/
def firing : FirePositions := ⟨251028000, 251057500, 251075500, 251078500, 1⟩

/-- Its sequencer, in a given phase. -/
def seq (x : Phase) : Sequencer :=
  { freshSequencer 5 .b (some .a) 38000 5 with phase := x, accepted := true, cNew := some 38020 }

/-- Stand 1 with its order in a state, and a given line position. -/
def waitingYard (p : Pos) (row : OrderRow) : State := { yard p with
  rows := vset up.rows 5 (some row)
  reels := vset (vset up.reels 0 (some { oldReel with tag := some 12 })) 1
    (some { newReel with tag := some 12 })
  schedules := vset up.schedules 0 [⟨5, 0, false, ⟨251038280, 251288280, 251038280⟩, false, 1554000⟩] }

/-- Stand 1 with its order committed, and a sequencer. -/
def committedYard (p : Pos) (x : OrderState) (q : Sequencer) : State :=
  let s := waitingYard p { order x with
    commitment := some commitment, fire := if x = .pasting ∨ x = .closing then some firing else none }
  { s with
    sequencers := vset s.sequencers 0 (some q)
    reels := vset s.reels 1 (some { newReel with state := .committed, tag := some 12 })
    schedules := vset s.schedules 0 [⟨5, 0, true, ⟨251038280, 251288280, 251038280⟩, false, 1554000⟩] }

/-- Stand 1 in CLOSING. -/
def closingYard (cut retracted : Bool) : State :=
  { committedYard 251078500 .closing { seq .closing with
      pasteFired := true, stub := some 359780, cutWait := some 2000, cutConfirmed := cut
      retractWait := some 3000, retractEnded := retracted } with
    schedules := up.schedules }

/-- The four bytes of a number. -/
def b4 (n : Nat) : List Byte := beBytes 4 n

/-! ## Well-formed commands -/

theorem test_wf_arm : (Instr.accept 0 .gauge none).wf = false ∧ (Instr.accept 0 .index (some .a)).wf = false ∧
    (Instr.refuse 0 .accel none .guardOpen).wf = false ∧ (Instr.accept 0 .gauge (some .a)).wf = true := by
  decide +kernel

theorem test_wf_codes : (Instr.answerFrameSeen 1 0x40 []).wf = false ∧ (Instr.unknownCode 1 0x40 []).wf = false ∧
    (Instr.unknownCode 1 0x85 []).wf = false ∧ (Instr.answerFrameSeen 32 0x85 []).wf = false ∧
    (Instr.unknownCode 1 0x60 (List.replicate 59 0)).wf = false ∧ (Instr.unknownCode 31 0x60 []).wf = true := by
  decide +kernel

/-- Every console command with address 32, and with 59 payload bytes, is ill-formed. -/
theorem test_wf_frames : ∀ code ∈ commandCodes, (commandOf 32 code []).wf = false ∧
    (commandOf 1 code (List.replicate 59 0)).wf = false ∧ (commandOf 31 code (List.replicate 58 0)).wf = true := by
  decide +kernel

/-! ## Frames -/

/-- The known check value of this CRC over the digits 1 to 9 (PRESUMED, assumption log 19). -/
theorem test_crc : crc16 [0x31, 0x32, 0x33, 0x34, 0x35, 0x36, 0x37, 0x38, 0x39] = 0x29B1 := by decide +kernel

/-- READ CHANGES to unit 3: marker, address, code, length 0, CRC (R178, R181). -/
theorem test_console_frame : (consoleFrame 3 0x40 []).take 4 = [0xA5, 3, 0x40, 0] ∧
    consoleCommandOf (consoleFrame 3 0x40 []) = .readChanges 3 [] ∧
    consoleCommandOf (consoleFrame 3 0x85 [0]) = .answerFrameSeen 3 0x85 [0] := by decide +kernel

/-- A payload of 58 bytes is taken; a wrong marker, length or CRC discards the frame (R178). -/
theorem test_discarded_frames :
    (parseConsole (consoleFrame 3 0x33 (List.replicate 58 7))).isSome = true ∧
    parseConsole (consoleFrame 3 0x33 (List.replicate 59 7)) = none ∧
    parseConsole (0xA4 :: (consoleFrame 3 0x40 []).tail) = none ∧
    parseConsole [0xA5, 3, 0x40, 0, 0, 0] = none ∧ parseConsole [0xA5, 3, 0x40] = none := by decide +kernel

/-- The frames of R153: a gauge RESPONSE of 1,210 mm for arm B of stand 2, and ACCEPT inside and outside a grant. -/
theorem test_stand_frames :
    standCommandOf true (busFrame true 1 0xA0 2 [0x30, 0x04, 0xBA]) = some (.response 1 (.gauge .b 1210)) ∧
    standCommandOf false (busFrame true 1 0x81 0 [0x10]) = some (.accept 1 .index none) ∧
    standCommandOf true (busFrame true 1 0x81 0 [0x10]) = some (.unroutedStandMessage 1) ∧
    standCommandOf true (busFrame false 1 0xB2 0 []) = none := by decide +kernel

/-! ## Lines, arms and outputs -/

/-- "Worked sequence: speed windows on line 2". -/
theorem test_speed_windows : ∀ x ∈ [(1203, false, 120300, false), (2050, false, 200000, true),
    (2400, true, 200000, true), (1998, true, 199800, false)],
    let s := setLine up 1 ⟨5, x.1, 0, x.2.1, 30⟩
    vget (after (.speedWindowEnd 1) s).lines 1 = ⟨5, 0, x.2.2.1, x.2.2.2, 40⟩ ∧
      (flagSet (after (.speedWindowEnd 1) s) 25 = (!x.2.1 && x.2.2.2)) := by decide +kernel

/-- An encoder pulse at the top of the range wraps (R1). -/
theorem test_pulse_wraps :
    vget (after (.encoderPulse 2) (setLine up 2 ⟨0xFFFFFFFF, 3, 0, false, 10⟩)).lines 2 = ⟨0, 4, 0, false, 10⟩ := by
  decide +kernel

/-- R80: the pulse that reaches the latest commit point of a HELD row drops the order; with CONFIRM and then the
report queued before the next pulse, the order commits LATE. -/
theorem test_limit_and_confirm :
    let s := waitingYard 249734279 (order .held)
    let both : State := { s with pending := [.confirm 1 [12], .latestCommitPointReport 5, .encoderPulse 0] }
    let row (u : State) := (vget u.rows 5).map fun r => (r.state, r.late)
    row (after (.encoderPulse 0) s) = some (.dropped, false) ∧
    row (after (.encoderPulse 0) both) = some (.held, false) ∧
    row (after (.confirm 1 [12]) (after (.encoderPulse 0) both)) = some (.accelerating, true) := by
  decide +kernel

/-- The pulse that reaches Pp fires PASTE, for the width of 40 ms (R2, R119). -/
theorem test_pulse_fires_paste :
    let t := after (.encoderPulse 0) (committedYard 251057499 .pasting (seq .pasting))
    (vget t.outputs 0).paste = some 40 ∧ (vget t.sequencers 0).map (·.pasteFired) = some true := by
  decide +kernel

/-- "Worked sequence: one arm across a wrap of the line position": the second and the third interval. -/
theorem test_interval_across_wrap :
    armContext (after (.revolutionMark 0 .b) (setArmContext (yard 13000) 0 .b
      ⟨some 4294950000, some 31000, 4, some 1073724528⟩)) 0 .b =
      ⟨some 13000, some 30296, 0, some 1073754824⟩ := by decide +kernel

/-- A stopped line closes an interval of 0 (R6), and a tape count stays at 15 (R9). -/
theorem test_stopped_line_and_tape_count :
    (armContext (after (.revolutionMark 0 .b) (setArmContext (yard 88000000) 0 .b
      ⟨some 88000000, some 0, 1, some 1161741824⟩)) 0 .b).lastInterval = some 0 ∧
    (armContext (after (.tapeMark 0) (setArmContext (yard 5) 0 .b ⟨none, none, 15, none⟩)) 0 .b).tapeCount = 15 := by
  decide +kernel

/-! ## The running reel -/

/-- "Worked sequence: the first revolutions of a run": the first sample, with caliper 75. -/
theorem test_first_sample :
    let s := setTracker (setArmContext (yard 10041200) 0 .a ⟨some 10000000, none, 0, some 1083741824⟩) 0
      (some (freshTracker 88114 .a none))
    let t := after (.revolutionMark 0 .a) (modReel 88114 (fun r => { r with caliper := some 75 }) s)
    (vget t.trackers 0).map (fun x => (x.state, x.window, x.mark)) =
      some (.tracking, [41200], some ⟨10041200, 179544224⟩) ∧
    (reelOf t 88114).map (fun r => (r.current, r.remaining)) = some (some 41200, some 179544224) := by
  decide +kernel

/-- "Worked sequence: a learned reel": 32 samples, the oldest 20,118. -/
theorem test_learned_sample :
    let s := setTracker (setArmContext (yard 200000000) 0 .a ⟨some 199980000, none, 0, some 1273721824⟩) 0
      (some { tracker1 with
        window := 20118 :: List.replicate 30 20010, cPrev := some 20004, mark := some ⟨199980000, 51500000⟩ })
    let t := after (.revolutionMark 0 .a) s
    (vget t.trackers 0).map (fun x => (x.state, x.window.length, x.delta, x.mark)) =
      some (.learned, 32, some 60, some ⟨200000000, 51438280⟩) ∧
    (reelOf t 88114).map (fun r => (r.learned, r.clamped)) = some (some 60, false) ∧
    splicePositions t 0 = some (251038280, 251288280) := by decide +kernel

/-- "Worked sequence: a tracking fault and its recovery": the third reject and the recovery. -/
theorem test_tracking_fault :
    let x : Tracker := { tracker1 with
      state := .learned, cPrev := some 20000, rejects := 2, mark := some ⟨300000000, 51438280⟩ }
    let t := after (.revolutionMark 0 .a) (setTracker (setArmContext (yard 300060130) 0 .a
      ⟨some 300040230, none, 0, some 1373782054⟩) 0 (some x))
    (vget t.trackers 0).map (·.state) = some .fault ∧ (reelOf t 88114).map (·.trackingFault) = some true ∧
    flagSet t 0 = true ∧
    let u := after (.revolutionMark 0 .a) (setTracker (setArmContext (yard 300100105) 0 .a
      ⟨some 300080120, none, 0, some 1373821944⟩) 0 (some { x with
        state := .fault, window := [], cPrev := none, rejects := 0, candidate := some 19990 }))
    (vget u.trackers 0).map (fun y => (y.state, y.window)) = some (.tracking, [19990, 19985]) ∧
      (reelOf u 88114).bind (·.remaining) = some 51358310 := by decide +kernel

/-! ## Placement -/

/-- "Worked case: two stands, spacing kept within the reserve", and the shortfall of row 2 of the next case. -/
theorem test_placement :
    (placeEntry 300000 [50000000] ⟨7, 4, false, ⟨50150000, 50450000, 0⟩, false, 0⟩).place.q = 50300000 ∧
    (placeEntry 300000 [70000000] ⟨9, 1, false, ⟨69900000, 70200000, 0⟩, false, 0⟩) =
      ⟨9, 1, false, ⟨69900000, 70200000, 69900000⟩, true, 0⟩ := by decide +kernel

/-- The line of "Worked case: a frozen entry, a shortfall, and a change of spacing", as line 1: stand 1 FROZEN,
stands 2, 4 and 6 PLACED. -/
def shortfall : State :=
  let row (n : Nat) (st : StandId) (reel : Nat) : OrderRow :=
    { order .armed with tag := n, stand := st, newReel := reel, place := none, distance := none }
  let entry (r : RowId) (st : StandId) (pp pl : Pos) : Entry := ⟨r, st, false, ⟨pp, pl, pp⟩, false, 0⟩
  { up with
    lines := vset up.lines 0 ⟨68000000, 0, 100000, false, 10⟩
    settings := { up.settings with lines := vset up.settings.lines 0 (vset (vset lineDefaults 0 30) 3 1) }
    reels := vset (vset (vset up.reels 3 (some (rec1 2 .ready (some .b) (some 36000))))
      4 (some (rec1 4 .ready (some .b) (some 37000)))) 5 (some (rec1 6 .ready (some .b) (some 40000)))
    rows := vset (vset (vset up.rows 9 (some (row 9 1 2))) 11 (some (row 11 3 4))) 0 (some (row 1 5 6))
    schedules := vset up.schedules 0 [⟨4, 0, true, ⟨0, 0, 70000000⟩, false, 1300000⟩,
      entry 11 3 70250000 70700000, entry 9 1 69900000 70200000, entry 0 5 70100000 70650000] }

/-- The table of that case: the taking order, Q, SPACING_SHORT and A, and the line flag. -/
theorem test_shortfall :
    (placedEntries 0 shortfall).map (fun e => (e.row, e.place.q, e.spacingShort, e.distance)) =
      [(9, 69900000, true, 1308000), (0, 70300000, false, 1320000), (11, 70600000, false, 1311000)] ∧
    flagSet (evalOnce 0 shortfall).1 24 = true ∧ flagSet shortfall 24 = false := by decide +kernel

/-- "Worked case: a late order": A and the commit point. -/
theorem test_commit_distance : commitDistance 100000 12000 38000 = 1314000 ∧
    back 90000000 (commitDistance 100000 12000 38000) = 88686000 := by decide +kernel

/-! ## A splice, event by event ("Worked sequence: a splice from commit to close") -/

/-- Stand 1's settings of that sequence. -/
def spliceSettings (s : State) : State := setSettings s { s.settings with
  stands := vset s.settings.stands 0 (vset (vset (vset standDefaults 4 150) 5 900) 6 3000) }

theorem test_commit :
    let t := after (.confirm 1 [12]) (spliceSettings (waitingYard 249600000 { order .held with go := false }))
    (vget t.rows 5).map (fun r => (r.state, r.go, r.late, r.commitment)) =
      some (.accelerating, true, false, some commitment) ∧
    (vget t.sequencers 0).map (fun q => (q.phase, q.tolerance)) = some (.accelerating, 190) ∧
    (reelOf t 90021).map (·.state) = some .committed ∧ t.bus.sent.take 7 =
      [0x3C, 0x01, 0x20, 0x02, 0x02, 0x94, 0x70] := by decide +kernel

theorem test_tape_seen :
    let s := setLine (committedYard 251028000 .matched { seq .matched with cNew := some 38000 }) 0
      ⟨251028000, 0, 120000, false, 10⟩
    let t := after (.tapeMark 0) (setArmContext s 0 .b ⟨some 251015900, some 38000, 0, some 1324757724⟩)
    (vget t.rows 5).map (fun r => (r.state, r.fire)) = some (.pasting, some firing) := by decide +kernel

theorem test_knife :
    let s := setTracker (committedYard 251078500 .pasting { seq .pasting with pasteFired := true }) 0
      (some { tracker1 with mark := some ⟨251040280, 398000⟩ })
    let t := after (.knifePositionReport 0) s
    (vget t.reels 0).map (fun r => (r.state, r.remaining)) = some (.expired, some 359780) ∧
    (vget t.reels 1).map (·.state) = some .running ∧ (vget t.outputs 0).knife = some 40 ∧
    (vget t.sequencers 0).map (fun q => (q.phase, q.cutWait, q.retractWait)) =
      some (.closing, some 2000, some 3000) ∧ vget t.schedules 0 = [] := by decide +kernel

/-- A knife on a LOST stand starts both waits too, with retract ended yes and no request (R121); the retract wait
then ends without RETRACT_TIMEOUT (R123). -/
theorem test_knife_lost :
    let y := committedYard 251078500 .pasting { seq .pasting with pasteFired := true }
    let t := after (.knifePositionReport 0)
      (setStand y 0 { vget y.stands 0 with errors := { noErrors with lost := true } })
    let u := after (.retractTimeout 0) t
    (vget t.sequencers 0).map (fun q => (q.cutWait, q.retractWait, q.retractEnded)) =
      some (some 2000, some 3000, true) ∧ t.bus = y.bus ∧
    (vget u.sequencers 0).map (·.retractWait) = some none ∧ u.stands = t.stands ∧ u.now = 3000 := by
  decide +kernel

theorem test_close :
    (vget (after (.armHome 0) (onGrant (closingYard true false))).rows 5).map (fun r => (r.state, r.results)) =
      some (.done, some ⟨251075500, some 359780, true, false⟩) := by decide +kernel

/-- A fault before the paste ends the order FAILED(STAND_FAULT); the coast is queued and sent. -/
theorem test_fault_before_paste :
    let t := after (.scanEnd #v[3, 0, 0, 0, 0, 0, 0, 0]) (committedYard 251050000 .pasting (seq .pasting))
    (vget t.rows 5).map (fun r => (r.state, r.reason)) = some (.failed, some .standFault) ∧
    t.bus.pair = .request 0 (plainRequest .coast (some .b)) false 20 ∧ vget t.sequencers 0 = none := by
  decide +kernel

/-! ## Verification (R26) -/

theorem test_judgements : judgeRun ⟨false, true, 2, [1, 1], 0⟩ = .passed ∧
    judgeRun ⟨false, true, 1, [1], 0⟩ = .shortTurn ∧ judgeRun ⟨false, true, 3, [2, 0], 0⟩ = .noTape ∧
    judgeRun ⟨false, true, 2, [1, 2], 0⟩ = .doubleTape := by decide +kernel

/-- What R25 takes: the first mark after the ACCEPT opens, later ones count, up to 255, and keep two counts. -/
theorem test_turning_takes : turnMark (some 7) ⟨false, false, 0, [], 0⟩ = ⟨false, true, 0, [], 0⟩ ∧
    turnMark (some 7) ⟨false, true, 254, [1, 2], 0⟩ = ⟨false, true, 255, [2, 7], 0⟩ ∧
    turnMark (some 7) ⟨false, true, 255, [1], 0⟩ = ⟨false, true, 255, [1, 7], 0⟩ ∧
    turnMark none ⟨false, true, 1, [1], 0⟩ = ⟨false, true, 1, [1], 0⟩ := by decide +kernel

/-! ## The stand bus -/

/-- A power-on scan finds stand 1: it comes ONLINE with STATUS sent (R155). -/
theorem test_first_scan :
    let t := after (.scanEnd #v[1, 0, 0, 0, 0, 0, 0, 0]) (after .resetRelease State.reset)
    (vget t.stands 0).condition = .online ∧ (vget t.stands 1).condition = .offline ∧
    t.bus.pair = .request 0 (plainRequest .status none) false 20 ∧ t.bus.scan = some 0 := by decide +kernel

/-- A drive request takes the place of the arm's other drive requests at the tail; another kind stands once
(R138). -/
theorem test_queue :
    placeRequest (plainRequest .coast (some .b))
      [⟨.accel, some .b, some 38000, none⟩, plainRequest .status none] =
      [plainRequest .status none, plainRequest .coast (some .b)] ∧
    placeRequest (plainRequest .status none) [plainRequest .status none] = [plainRequest .status none] := by
  decide +kernel

/-- An ARM EMPTIED with no record bound to the arm abandons the arm's read (R22, R139). -/
theorem test_emptied_arm_read :
    let s := onGrant { yard 5 with bus := { up.bus with
      reads := vset up.bus.reads 0 [⟨.gauge .c, some 70412, 2000⟩, ⟨.status, none, 2000⟩] } }
    vget (after (.armEmptied 0 .c) s).bus.reads 0 = [⟨.status, none, 2000⟩] := by decide +kernel

/-- An ATTENTION of an unknown event ends a grant with arm 0 and one byte, and is not well formed otherwise
(R147, R153). -/
theorem test_unknown_event :
    standCommandOf true (busFrame true 1 0x90 0 [9]) = some (.unroutedStandMessage 1) ∧
    standCommandOf true (busFrame true 1 0x90 2 [9]) = none ∧
    standCommandOf true (busFrame true 1 0x90 0 [9, 0]) = none := by decide +kernel

/-! ## The console -/

/-- ENTER REEL 70412 of "Worked sequence: one reel from entry to retirement". -/
theorem test_enter_reel :
    let t := after (.enterReel 1 (b4 70412 ++ [2, 0x01, 0x36, 0, 0, 0, 0, 60])) up
    vget t.reels 0 = some ⟨70412, 1, 310, .staged, none, 3770, none, some 60, none, none, none, .untested,
      false, false, false, none⟩ ∧ t.port.answer = some ⟨0x81, [0]⟩ := by decide +kernel

/-- Its gauge RESPONSE of 1,210 mm stores 38,013. -/
theorem test_gauge :
    let s := onGrant { yard 5 with reels := vset up.reels 0 (some (rec1 70412 .mounted (some .a) none)) }
    let t := after (.response 0 (.gauge .a 1210)) { s with bus := { s.bus with
      reads := vset s.bus.reads 0 [⟨.gauge .a, some 70412, 2000⟩] } }
    (vget t.reels 0).bind (·.outside) = some 38013 ∧ (vget t.stands 0).outcome = .gaugeStored .a := by
  decide +kernel

/-- "Worked sequence: listing a table of 14 records": counts and next starts. -/
theorem test_list_reels :
    let used := [0, 1, 3, 4, 5, 7, 8, 9, 10, 11, 12, 14, 15, 20]
    let s : State := { up with reels := Vector.ofFn fun i =>
      if i.val ∈ used then some (rec1 (i.val + 100) .staged none none) else none }
    let first (n : Byte) := (after (.listReels 1 [n]) s).port.answer.map fun a => a.payload.take 3
    first 0 = some [0, 12, 15] ∧ first 15 = some [0, 2, 64] ∧ first 64 = some [0, 0, 64] ∧
      (after (.listReels 1 [15]) s).port.answer.map (·.payload.drop 3) = some (b4 115 ++ b4 120) := by
  decide +kernel

/-- "Worked sequence: setting up stand 2": the first DATA frame. -/
theorem test_parameter_run :
    let t := after (.data 1 (b4 2 ++ b4 45 ++ b4 3 ++ b4 40000))
      (setPort up { up.port with run := some ⟨.stand 1, 0⟩ })
    t.port = ⟨1, some ⟨.stand 1, 4⟩, 0, some ⟨0xB3, 0 :: b4 2 ++ b4 45 ++ b4 5 ++ b4 30000⟩⟩ ∧
    (vget t.settings.stands 1).toList.take 4 = [2, 45, 5, 30000] := by decide +kernel

/-- "Worked sequence: lowering a splice floor on a running line". -/
theorem test_floor_in_force :
    let t := after (.setParameter 1 [1, 1, 2, 0, 0, 0x75, 0x30]) up
    lineParam t 0 2 = 30000 ∧ (vget t.settings.floors 0).splice = 40000 ∧
    (vget (after (.speedWindowEnd 0) t).settings.floors 0).splice = 30000 := by decide +kernel

/-- "Worked sequence: one pass over a busy unit": READ CHANGES and ACK CHANGES of row 5. -/
theorem test_changes :
    let s := setPort up { up.port with flags := 1 <<< 13 }
    (after (.readChanges 1 []) s).port.answer = some ⟨0xC0, [0, 0, 0x20, 0, 0]⟩ ∧
    (after (.ackChanges 1 [0, 0x20, 0, 0]) s).port.answer = some ⟨0xC1, [0, 0, 0, 0, 0]⟩ ∧
    (after (.ackChanges 1 [0, 0, 0, 0]) s).port.flags = 1 <<< 13 := by decide +kernel

/-- READ ORDER section 0 reports in its flags byte whether PASTE has fired (R119, assumption log 38). -/
theorem test_read_order_paste :
    let flags (fired : Bool) := (after (.readOrder 1 [0, 12, 0])
      (committedYard 251060000 .pasting { seq .pasting with pasteFired := fired })).port.answer.map
        (·.payload.getD 18 0)
    flags false = some 0 ∧ flags true = some 8 := by decide +kernel

/-- The two tables of defaults agree (R171). -/
theorem test_defaults : standDefaults = standSpecs.map (·.default) ∧ lineDefaults = lineSpecs.map (·.default) := by
  decide +kernel

/-! ## Witnesses: a state and operands that meet the hypotheses of each statement that has some -/

theorem next_after (c : Instr) (s : State) (h : (match exec c s with | .next _ => true | _ => false) = true) :
    exec c s = .next (after c s) := by
  unfold after; split at h <;> simp_all

theorem witness_StepRunsFrontCommand :
    ({ up with pending := [.scanCall, .answerSent] } : State).pending = .scanCall :: [.answerSent] := rfl

/-- Idle, with an elapsed grant that is due, and with the first speed windows at their end. -/
theorem witness_EmptyQueueStep : up.pending = [] ∧ dueCommand up = none ∧
    dueCommand { onGrant up with now := 20 } = some .grantLapse ∧
    dueCommand { up with now := 10 } = some (.speedWindowEnd 0) := by decide +kernel

theorem witness_ConsoleFramesDecode : (Instr.retireReel 31 [0, 0, 0, 1]).wf = true ∧
    consoleFrameOf (.retireReel 31 [0, 0, 0, 1]) = some (consoleFrame 31 5 [0, 0, 0, 1]) := by decide +kernel

/-- An ACCEPT, which names the two clauses' exception, and a message that is in both. -/
theorem witness_StandFramesDecode : (Instr.accept 7 .gauge (some .c)).wf = true ∧
    standFrameOf (.accept 7 .gauge (some .c)) = some (busFrame true 7 0x81 3 [0x30]) ∧
    (∀ st k arm, Instr.armHome 0 ≠ .accept st k arm) ∧ (∀ st k arm w, Instr.armHome 0 ≠ .refuse st k arm w) ∧
    standFrameOf (.armHome 0) = some (busFrame true 0 0x90 0 [3]) :=
  ⟨rfl, by decide +kernel, nofun, nofun, by decide +kernel⟩

/-- For the laws on what every command keeps: an encoder pulse among orders, records and stands. -/
theorem witness_kept : let c : Instr := .stopHoldTimerEnd 0
    let s := { waitingYard 249600000 (order .held) with
      stands := vset up.stands 0 { resetStand with condition := .online, stopHold := some 3000 } }
    (∀ a p, c ≠ .clearStand a p) ∧ (∀ a, c ≠ .powerOnReset a) ∧ (∀ a p, c ≠ .releaseOrder a p) ∧
    (∀ a p, c ≠ .restart a p) ∧ (∀ a p, c ≠ .enterReel a p) ∧ (∀ a p, c ≠ .amendReel a p) ∧
    (∀ a p, c ≠ .ackChanges a p) ∧ exec c s = .next (after c s) ∧ (vget s.rows 5).isSome = true ∧
    vget s.reels 7 = none ∧ (vget s.reels 0).isSome = true ∧ (vget (after c s).reels 0).isSome = true :=
  ⟨nofun, nofun, nofun, nofun, nofun, nofun, nofun, next_after _ _ (by decide +kernel),
    by decide +kernel⟩

/-- For the laws that every step keeps: a state with an order, records, a queued request and a bid that meets
them all, and its step. -/
def lawful : State :=
  let s := waitingYard 249600000 (order .armed)
  { s with
    pending := [.encoderPulse 0]
    bus := { s.bus with
      queues := vset s.bus.queues 0 [⟨.gauge, some .c, none, some 70412⟩, ⟨.status, none, none, none⟩]
      pair := .grant 0 20 } }

theorem witness_laws : SettingsInRange lawful.settings ∧ QueuesOk lawful ∧ NothingWaits lawful ∧
    LinesInRange lawful ∧ TapeCountsInRange lawful ∧ step lawful = .next (after (.encoderPulse 0)
      { lawful with pending := [] }) := by
  refine ⟨?_, ?_, ?_, ?_, ?_, next_after (.encoderPulse 0) { lawful with pending := [] } (by decide +kernel)⟩
  · unfold SettingsInRange inRange; decide +kernel
  · unfold QueuesOk QueueOk; decide +kernel
  · unfold NothingWaits; decide +kernel
  · unfold LinesInRange; decide +kernel
  · intro st arm; cases arm <;> revert st <;> decide +kernel

theorem witness_table_laws : ReelNumbersDiffer lawful ∧ TagsDiffer lawful ∧ OneOpenOrder lawful := by
  refine ⟨fun i j x y hi hj => ?_, fun i j x y hi hj => ?_, fun i j x y hi hj => ?_⟩
  · exact (by decide +kernel : ∀ i j, ∀ x ∈ vget lawful.reels i, ∀ y ∈ vget lawful.reels j,
      x.reel = y.reel → i = j) i j x hi y hj
  · exact (by decide +kernel : ∀ i j, ∀ x ∈ vget lawful.rows i, ∀ y ∈ vget lawful.rows j,
      x.tag = y.tag → i = j) i j x hi y hj
  · exact (by decide +kernel : ∀ i j, ∀ x ∈ vget lawful.rows i, ∀ y ∈ vget lawful.rows j,
      x.stand = y.stand → x.state.isOpen = true → y.state.isOpen = true → i = j) i j x hi y hj

/-- The four clauses: RESET held; quiet and at rest; continuous; quiet with the last END slot known. -/
theorem witness_ScansStart : State.reset.resetHeld = true ∧ up.bus.quiet = false ∧
    (let b : Bus := { up.bus with quiet := true, scan := none, lastEnd := some 7 }
     b.quiet = true ∧ b.scan = none ∧ b.lastEnd = some 7) := by decide +kernel

/-- No watch of any line is due, from the tests of the six kinds. -/
theorem noneDue_of {l : LineId} {later : List Instr} {s : State}
    (hr : ∀ r, commitPointDue s r = false ∧ latestDue s r = false)
    (hs : ∀ st, deadlineDue s st = false ∧ pasteDue s st = false ∧ knifeDue s st = false)
    (ha : ∀ st, staleDue s st .a = false ∧ staleDue s st .b = false ∧ staleDue s st .c = false) :
    NoneDue l later s := by
  intro c _ _
  cases c with
  | commitPointReport r => exact (hr r).1
  | latestCommitPointReport r => exact (hr r).2
  | matchDeadlineReport st => exact (hs st).1
  | pastePositionReport st => exact (hs st).2.1
  | knifePositionReport st => exact (hs st).2.2
  | staleLimitReached st arm =>
    cases arm
    · exact (ha st).1
    · exact (ha st).2.1
    · exact (ha st).2.2
  | _ => rfl

/-- A pulse that makes no watch due; one that reaches Pp with the report named before the next pulse; the state
after the pulse that reaches Pp, where the Pp watch alone is due and its report leaves none due. -/
theorem witness_EncoderPulse : let s := committedYard 251057499 .pasting (seq .pasting)
    let pulsed := committedYard 251057500 .pasting (seq .pasting)
    NothingWaits s ∧ NothingWaits up ∧ NoneDue 0 [] (setLine up 0 ⟨1, 1, 0, false, 10⟩) ∧
    .pastePositionReport 0 ∉ together 0 s ∧ NoneDue 0 [.pastePositionReport 0] pulsed ∧
    together 0 { s with pending := [.pastePositionReport 0, .encoderPulse 0, .scanCall] } =
      [.pastePositionReport 0] ∧
    (vget s.lines 0).position + 1 = (vget pulsed.lines 0).position ∧
    watchLine pulsed (.pastePositionReport 0) = some 0 ∧ watchDue pulsed (.pastePositionReport 0) = true ∧
    (∀ d, d ≠ .pastePositionReport 0 → d ∉ together 0 s → watchLine pulsed d = some 0 → watchDue pulsed d = false) ∧
    NoneDue 0 (together 0 s) (after (.pastePositionReport 0) pulsed) := by
  intro s pulsed
  have hf : ∀ st, st ≠ 0 → pasteDue pulsed st = false := by decide +kernel
  have hr : ∀ r, commitPointDue pulsed r = false ∧ latestDue pulsed r = false := by decide +kernel
  have hs : ∀ st, deadlineDue pulsed st = false ∧ knifeDue pulsed st = false := by decide +kernel
  have ha : ∀ st, staleDue pulsed st .a = false ∧ staleDue pulsed st .b = false ∧
      staleDue pulsed st .c = false := by decide +kernel
  have others : ∀ d, d ≠ .pastePositionReport 0 → watchDue pulsed d = false := by
    intro d hd
    cases d with
    | commitPointReport r => exact (hr r).1
    | latestCommitPointReport r => exact (hr r).2
    | matchDeadlineReport st => exact (hs st).1
    | pastePositionReport st => exact hf st (fun h => hd (by rw [h]))
    | knifePositionReport st => exact (hs st).2
    | staleLimitReached st arm =>
      cases arm
      · exact (ha st).1
      · exact (ha st).2.1
      · exact (ha st).2.2
    | _ => rfl
  refine ⟨?_, ?_, noneDue_of ?_ ?_ ?_, ?_, fun d hd _ => others d (by simpa using hd), ?_, ?_, ?_, ?_,
    fun d hd _ _ => others d hd, noneDue_of ?_ ?_ ?_⟩
  · unfold NothingWaits; decide +kernel
  · unfold NothingWaits; decide +kernel
  all_goals decide +kernel

/-- The clause on the flag, at the least count above the limit. A tracker in TRACKING below the measure floor,
one in LEARNED with a record that holds its decrement, one in HOLD at the floor, one in FAULT; a row ARMED past
its commit point at and below the splice floor; an order of each of the two phases below it. -/
theorem witness_SpeedWindowEnd :
    let s := setLine up 2 ⟨5, 2001, 0, false, 10⟩
    let at' (n : Nat) (x : TrackerState) (u : State) : State :=
      setTracker (setLine u 0 ⟨249600000, n, 120000, false, 10⟩) 0 (some { tracker1 with state := x })
    let row : OrderRow := { order .armed with past := true }
    200000 < 100 * (vget s.lines 2).windowCount ∧ (vget s.lines 2).overspeed = false ∧ lineParam s 2 3 = 1 ∧
    lineOf (yard 5) 0 = 0 ∧ lineParam (yard 5) 0 1 = 3000 ∧ lineParam (yard 5) 0 2 = 40000 ∧
    (∀ st, vget (at' 29 .learned (yard 5)).sequencers st = none) ∧
    (∀ r, pastOnLine (at' 29 .learned (yard 5)) 0 r = false) ∧
    (vget (at' 30 .hold (yard 5)).trackers 0).map (·.state) = some .hold ∧ 3000 ≤ min (100 * 30) 200000 ∧
    (∀ n ∈ [400, 399], let u := at' n .tracking (waitingYard 5 row)
     vget u.rows 5 = some row ∧ row.past = true ∧ row.go = true ∧ row.place.isSome = true ∧
      row.distance = some 1554000 ∧ (∀ r, r ≠ 5 → pastOnLine u 0 r = false) ∧
      (∀ st, vget u.sequencers st = none) ∧ lineParam u 0 2 ≤ 100 * n + 100 ∧
      2147483648 ≤ (standPos u 0 - ((251288280 : Pos) - BitVec.ofNat 32 1554000)).toNat) ∧
    ∀ q ∈ [(seq .accelerating, OrderState.accelerating), (seq .matched, OrderState.matched)],
      let u := at' 399 .tracking (committedYard 5 q.2 q.1)
      vget u.sequencers 0 = some q.1 ∧ (vget u.rows q.1.row).map (fun r => (r.stand, r.state)) = some (0, q.2) ∧
      (∀ e ∈ vget u.schedules 0, e.frozen = true) ∧ (∀ st, st ≠ 0 → vget u.sequencers st = none) ∧
      (∀ i, i ≠ 5 → vget u.rows i = none) := by
  decide +kernel

/-- What those clauses ask of the whole table (R70) holds there: one row. -/
theorem witness_SpeedWindowEnd_oneOrder :
    OneOpenOrder (committedYard 5 .matched (seq .matched)) := fun i j x y hi hj =>
  (by decide +kernel : ∀ i j, ∀ x ∈ vget (committedYard 5 .matched (seq .matched)).rows i,
    ∀ y ∈ vget (committedYard 5 .matched (seq .matched)).rows j, x.stand = y.stand →
    x.state.isOpen = true → y.state.isOpen = true → i = j) i j x hi y hj

/-- No last mark; a run that waits, one of another arm, and a TURNING run without and with its opening mark, with
and without a last mark of the arm, and with the count at 254 and 255. -/
theorem witness_RevolutionMark :
    let run (y : Arm) (x : Option Turning) : State := setVerify (yard 5) 0 (some ⟨90021, y, x⟩)
    let turned (marked : Bool) (n : Nat) : Turning := ⟨false, marked, n, [1, 1], 15000⟩
    let seen (s : State) : State := setArmContext s 0 .b ⟨some 1, none, 1, some 3⟩
    (armContext up 7 .c).lastMark = none ∧ (vget (run .b none).verifies 0).map (·.turning) = some none ∧
    (vget (run .a (some (turned true 1))).verifies 0).map (·.arm) = some .a ∧
    (∀ x ∈ [turned false 0, turned true 254, turned true 255],
      vget (seen (run .b (some x))).verifies 0 = some ⟨90021, .b, some x⟩ ∧
      vget (run .b (some x)).verifies 0 = some ⟨90021, .b, some x⟩) ∧
    (armContext (run .b none) 0 .b).lastMark = none ∧ (armContext (seen (yard 5)) 0 .b).lastMark = some 1 := by
  decide +kernel

/-- No arm at SPLICE; arm B at SPLICE with a sequencer that is not MATCHED; a MATCHED order with an interval at
the tolerance's edge and the mark at Q − C_new, where PASTING starts with Pp ahead, and one web step before. -/
theorem witness_TapeMark :
    let w := committedYard 249600000 .accelerating (seq .accelerating)
    let s := setArmContext (committedYard 251000090 .matched (seq .matched)) 0 .b
      ⟨some 250990000, some 38190, 0, some 1324731824⟩
    let early := setArmContext (committedYard 251000089 .matched (seq .matched)) 0 .b
      ⟨some 250990000, some 38190, 0, some 1324731824⟩
    spliceArm up 0 = none ∧ spliceArm (yard 5) 0 = some .b ∧ spliceArm w 0 = some .b ∧
    (∀ q ∈ vget w.sequencers 0, q.phase ≠ .matched) ∧ NothingWaits w ∧ NothingWaits s ∧
    NothingWaits early ∧ spliceArm s 0 = some .b ∧ vget s.sequencers 0 = some (seq .matched) ∧
    (seq .matched).newArm = .b ∧ (armContext s 0 .b).lastInterval = some 38190 ∧
    ((vget s.rows 5).map fun r => (r.state, r.place.map (·.q), r.commitment)) =
      some (.matched, some 251038280, some commitment) ∧ 38190 ≤ (seq .matched).circumference + 190 ∧
    (seq .matched).tolerance = 190 ∧
    (standPos s 0 - ((251038280 : Pos) - BitVec.ofNat 32 38190)).toNat < 2147483648 ∧
    2147483648 ≤ (standPos early 0 - ((251038280 : Pos) - BitVec.ofNat 32 38190)).toNat ∧
    2147483648 ≤ (standPos s 0 - (firePositions (standPos s 0) 38190 120000 spliceFrozen).pp).toNat := by
  unfold NothingWaits; decide +kernel

/-- A stale limit just reached, and each output asserted. -/
theorem witness_StaleLimitAndPulseEnd :
    let s := setOutputs (setArmContext (yard 1073741829) 0 .a ⟨some 5, none, 0, some 1073741829⟩) 0
      ⟨some 40, some 50⟩
    (armContext s 0 .a).staleLimit = some 1073741829 ∧ (standPos s 0 - 1073741829).toNat < 2147483648 ∧
    (vget s.outputs 0).paste = some 40 ∧ (vget s.outputs 0).knife = some 50 := by decide +kernel

/-- Stand 1 with a tracker, its last mark of arm A at 200,000,000 and the line an interval on. -/
def sampling (x : Tracker) (c : Nat) : State :=
  setTracker (setArmContext (yard (200000000 + BitVec.ofNat 32 c)) 0 .a
    ⟨some 200000000, none, 0, some 1273741824⟩) 0 (some x)

/-- A tracker of the running reel in a state. -/
def trackerIn (x : TrackerState) : Tracker := { tracker1 with state := x, cPrev := some 20100 }

/-- The hypotheses, at each of these trackers: a window of 30; the widest second bound (c = C_prev + 16); the
largest first interval of 42,000; windows of 31 whose decrement is in, below and above its range of 30 to 120;
a first and a third reject; FAULT with the first bound failing, without a candidate and with one at the edge of
the tolerance of 20; HOLD. -/
theorem witness_TrackerSamples :
    let full (h : Nat) : Tracker := { trackerIn .learned with window := h :: List.replicate 30 20100 }
    let raw (h : Nat) : Int := 16 * ((h : Int) - 20100) / 31
    (∀ e ∈ [({ trackerIn .tracking with window := List.replicate 30 20110 }, 20116),
        (freshTracker 88114 .a none, 42000), (full 20216, 20100), (full 20101, 20100), (full 20500, 20100),
        (trackerIn .tracking, 20117), ({ trackerIn .learned with rejects := 2 }, 20035),
        (trackerIn .fault, 3770), (trackerIn .fault, 20100),
        ({ trackerIn .fault with candidate := some 20080 }, 20100), (trackerIn .hold, 20100)],
      let s := sampling e.1 e.2
      vget s.trackers 0 = some e.1 ∧ e.1.arm = .a ∧ reelOf s e.1.reel = some oldReel ∧
      (armContext s 0 .a).lastMark = some 200000000 ∧ e.2 = (standPos s 0 - 200000000).toNat ∧
      vget s.sequencers 0 = none ∧ vget s.schedules (lineOf s 0) = []) ∧
    (freshTracker 88114 .a none).state = .warming ∧ (freshTracker 88114 .a none).cPrev = none ∧
    caliperOf (yard 5) oldReel * 201 / 200 = 60 ∧ (raw 20216 = 59 ∧ raw 20101 < 30 ∧ 120 < raw 20500) ∧
    oldReel.core < 20116 ∧ ¬ 20117 ≤ 20100 + 16 ∧ ¬ 20100 ≤ 20035 + 64 ∧ ¬ oldReel.core < 3770 ∧
    20100 ≤ 20080 + (16 + (60 + 15) / 16) := by
  decide +kernel

/-- At the largest spacing, with an entry moved past one blocker, and with one whose Plate lies before it. -/
theorem witness_PlacementKeepsSpacing :
    let e : Entry := ⟨7, 4, false, ⟨5000001#32, 40000000#32, 0#32⟩, false, 0⟩
    let short : Entry := { e with place := { e.place with plate := 13999999#32 } }
    (e.place.ppref - 0#32).toNat < 1073741824 ∧ (9000000#32 - 0#32).toNat < 1073741824 ∧
    (placeEntry 5000000 [9000000#32] e).spacingShort = false ∧
    (placeEntry 5000000 [9000000#32] e).place.q = 14000000#32 ∧
    (placeEntry 5000000 [9000000#32] short).spacingShort = true ∧
    (13999999#32 - 0#32).toNat < 1073741824 ∧ (13999999#32 - e.place.ppref).toNat < 2147483648 ∧
    (short.place.plate - 13999999#32).toNat < 2147483648 := by decide +kernel

/-- An evaluation with three PLACED entries around a FROZEN one: the bounds, an entry newly short with the line's
report enable on, every commit point ahead, and every row waiting and named by one entry. -/
theorem witness_PlacementKeepsSpacing_evaluation : let s := shortfall
    let es := placedEntries 0 s
    spacingSteps s 0 = 300000 ∧ lineParam s 0 3 = 1 ∧ es.length = 3 ∧
    (∀ e ∈ vget s.schedules 0, (splicePositions s e.stand) = none ∧
      (e.frozen = true → (e.place.q - 0#32).toNat < 1073741824) ∧
      (e.frozen = false → (e.place.ppref - 0#32).toNat < 1073741824 ∧
        (e.place.plate - 0#32).toNat < 1073741824)) ∧
    (∃ e ∈ es, e.spacingShort = true ∧ ∃ b ∈ vget s.schedules 0, b.row = e.row ∧ b.spacingShort = false) ∧
    (∀ e ∈ es, 2147483648 ≤ ((vget s.lines 0).position - (e.place.q - BitVec.ofNat 32 e.distance)).toNat ∧
      2147483648 ≤ ((vget s.lines 0).position - (e.place.plate - BitVec.ofNat 32 e.distance)).toNat ∧
      (∀ x ∈ es, x.row = e.row → x = e) ∧ (vget s.rows e.row).map (·.state.waiting) = some true ∧
      ((vget s.rows e.row).bind fun r => reelOf s r.newReel).bind (·.outside) ≠ none) := by decide +kernel

/-- At the commit point itself, and with the sequencer's clause too. -/
theorem witness_CommitPointCommits : let s := waitingYard 249484280 (order .armed)
    vget s.rows 5 = some (order .armed) ∧ (order .armed).past = false ∧ (order .armed).go = true ∧
    (standPos s 0 - ((251038280 : Pos) - BitVec.ofNat 32 1554000)).toNat < 2147483648 ∧
    (vget s.settings.floors (lineOf s 0)).splice ≤ standSpeed s 0 ∧
    reelOf s 90021 = some { newReel with tag := some 12 } ∧ newReel.outside = some 38000 ∧
    AloneOnLine s 0 5 ∧ newReel.state = .ready := by
  unfold AloneOnLine
  decide +kernel

/-- ARMED at its commit point with and without go, on a slow line too; each waiting row at the latest commit
point, the ARMED row not past with and without go, on a slow line and at the splice floor. -/
theorem witness_WaitingOrdersHoldOrDrop :
    let row : OrderRow := { order .armed with go := false }
    let s := waitingYard 249484280 row
    let late : Pos := 251288280 - BitVec.ofNat 32 1554000
    let past : OrderRow := { order .armed with past := true }
    let slowed (v : Nat) (s : State) : State := setLine s 0 { vget s.lines 0 with speed := v }
    let floor (s : State) := (vget s.settings.floors (lineOf s 0)).splice
    vget s.rows 5 = some row ∧ row.past = false ∧ row.go = false ∧ NothingWaits s ∧
    (standPos s 0 - ((251038280 : Pos) - BitVec.ofNat 32 1554000)).toNat < 2147483648 ∧
    2147483648 ≤ (standPos s 0 - late).toNat ∧
    (standPos (waitingYard late row) 0 - ((251038280 : Pos) - BitVec.ofNat 32 1554000)).toNat < 2147483648 ∧
    vget (waitingYard late (order .held)).rows 5 = some (order .held) ∧
    (standPos (waitingYard late (order .held)) 0 - late).toNat < 2147483648 ∧
    vget (waitingYard late past).rows 5 = some past ∧ past.state = .armed ∧
    vget (waitingYard late (order .armed)).rows 5 = some (order .armed) ∧ (order .armed).go = true ∧
    (∀ u ∈ [waitingYard 249484280 (order .armed), waitingYard late (order .armed)],
      standSpeed (slowed 39999 u) 0 < floor (slowed 39999 u) ∧ floor (slowed 40000 u) ≤ standSpeed (slowed 40000 u) 0) ∧
    NothingWaits (slowed 39999 (waitingYard 249484280 (order .armed))) ∧
    reelOf (waitingYard late (order .armed)) 90021 = some { newReel with tag := some 12 } ∧
    AloneOnLine (waitingYard late (order .armed)) 0 5 := by
  unfold NothingWaits AloneOnLine; decide +kernel

/-- At the match deadline itself. -/
theorem witness_MatchDeadlineCloses : let s := committedYard 251212280 .accelerating (seq .accelerating)
    vget s.sequencers 0 = some (seq .accelerating) ∧
    ((vget s.rows 5).map fun r => (r.state, r.stand, r.commitment)) = some (.accelerating, 0, some commitment) ∧
    (standPos s 0 - commitment.deadline).toNat < 2147483648 ∧
    (∀ e ∈ vget s.schedules (lineOf s 0), e.frozen = true) := by decide +kernel

/-- Stand 1 with a sequencer and the new arm's mark an interval ago. -/
def turningArm (x : OrderState) (q : Sequencer) (w tapes : Nat) (p : Pos) : State :=
  setArmContext (committedYard p x q) 0 .b
    ⟨some (p - BitVec.ofNat 32 w), none, tapes, some (p - BitVec.ofNat 32 w + 0x40000000#32)⟩

/-- The hypotheses at each clause, with intervals at the edge of the tolerance and one web step outside:
ACCELERATING with and without a run, out of tolerance, not accepted; MATCHED with a match loss before and at the
deadline, with a first and a second revolution without tape, with tape; PASTING. -/
theorem witness_MatchIntervals :
    let acc := seq .accelerating
    let mat := seq .matched
    (∀ e ∈ [(OrderState.accelerating, { acc with inRun := true }, 38190, 0, (250939880 : Pos)),
        (.accelerating, acc, 37810, 0, 250939880), (.accelerating, { acc with inRun := true }, 38191, 0, 250939880),
        (.accelerating, { acc with accepted := false }, 38000, 0, 250939880),
        (.matched, { mat with outRun := true }, 38191, 0, 251212279),
        (.matched, { mat with outRun := true }, 37809, 0, 251212280),
        (.matched, { mat with missRun := true }, 38190, 0, 250939880), (.matched, mat, 38191, 0, 250939880),
        (.matched, { mat with missRun := true }, 38000, 1, 250939880),
        (.pasting, seq .pasting, 38000, 0, 251040000)],
      let s := turningArm e.1 e.2.1 e.2.2.1 e.2.2.2.1 e.2.2.2.2
      vget s.sequencers 0 = some e.2.1 ∧ e.2.1.newArm = .b ∧
      (vget s.rows e.2.1.row).map (fun r => (r.state, r.stand, r.commitment)) =
        some (e.1, 0, some commitment) ∧
      (armContext s 0 .b).lastMark.map (fun m => (standPos s 0 - m).toNat) = some e.2.2.1 ∧
      (∀ x ∈ vget s.trackers 0, x.arm ≠ .b) ∧ (∀ v ∈ vget s.verifies 0, v.arm ≠ .b) ∧
      (s.bus.pair = .free → ∀ st, vget s.bus.queues st = [] ∧ vget s.bus.bids st = false) ∧
      (∀ x ∈ vget s.schedules (lineOf s 0), x.frozen = true)) ∧
    acc.circumference = 38000 ∧ acc.tolerance = 190 ∧ commitment.retries < commitment.frozen.retryLimit ∧
    2147483648 ≤ ((251212279 : Pos) - commitment.deadline).toNat ∧
    ((251212280 : Pos) - commitment.deadline).toNat < 2147483648 := by
  decide +kernel

/-- A match loss at the retry limit: the same state with the retries used up, in the row and at the limit. -/
theorem witness_MatchIntervals_limit :
    let used : Commitment := { commitment with retries := commitment.frozen.retryLimit }
    let row : OrderRow := { order .matched with commitment := some used }
    let s := setRow (turningArm .matched { seq .matched with outRun := true } 38191 0 250939880) 5 (some row)
    vget s.rows 5 = some row ∧ row.state = .matched ∧ row.commitment = some used ∧
    used.frozen.retryLimit ≤ used.retries ∧ NothingWaits s ∧
    (vget s.sequencers 0).map (fun q => (q.row, q.outRun)) = some (5, true) ∧
    (armContext s 0 .b).lastMark.map (fun m => (standPos s 0 - m).toNat) = some 38191 := by
  unfold NothingWaits; decide +kernel

theorem witness_PasteFires : let s := committedYard 251057500 .pasting (seq .pasting)
    NothingWaits s ∧ vget s.sequencers 0 = some (seq .pasting) ∧ (seq .pasting).pasteFired = false ∧
    ((vget s.rows 5).map fun r => (r.fire, r.commitment)) = some (some firing, some commitment) ∧
    (standPos s 0 - firing.pp).toNat < 2147483648 ∧ 2147483648 ≤ (standPos s 0 - firing.pk).toNat := by
  unfold NothingWaits; decide +kernel

/-- The same state with the stand in service, and LOST. -/
theorem witness_KnifeFires :
    let q := { seq .pasting with pasteFired := true }
    let s := committedYard 251078500 .pasting q
    vget s.sequencers 0 = some q ∧ (vget s.rows 5).map (·.state) = some .pasting ∧
    ((vget s.rows 5).map fun r => (r.fire, r.commitment, r.tag)) = some (some firing, some commitment, 12) ∧
    (standPos s 0 - firing.pk).toNat < 2147483648 ∧
    reelOf s 88114 = some { oldReel with tag := some 12 } ∧
    reelOf s 90021 = some { newReel with state := .committed, tag := some 12 } ∧
    vget s.trackers 0 = some tracker1 ∧ tracker1.reel = 88114 ∧ (vget s.stands 0).errors.lost = false ∧
    q.oldArm = some .a ∧ (∀ e ∈ vget s.schedules (lineOf s 0), e.frozen = true) ∧
    let lost := setStand s 0 { vget s.stands 0 with errors := { noErrors with lost := true } }
    (vget lost.stands 0).errors.lost = true ∧ lost.sequencers = s.sequencers ∧ lost.rows = s.rows ∧
      lost.reels = s.reels ∧ lost.trackers = s.trackers ∧ lost.schedules = s.schedules := by decide +kernel

/-- The five endings: cut wait over, CUT CONFIRMED, retract wait over, ARM HOME, the REFUSE of RETRACT; the first
state has a retract wait with retract ended yes too. -/
theorem witness_ClosingEndsDone :
    let part (s : State) := ((vget s.rows 5).map fun r => (r.state, r.stand, r.fire),
      (vget s.sequencers 0).map fun q => (q.phase, q.row, q.cutWait, q.retractWait),
      (vget s.sequencers 0).map fun q => (q.cutConfirmed, q.retractEnded), granted s 0)
    let half (c r : Bool) (g : Bool) := (some (OrderState.closing, (0 : StandId), some firing),
      some (Phase.closing, (5 : RowId), some 2000, some 3000), some (c, r), g)
    part (closingYard false true) = half false true false ∧
    part (onGrant (closingYard false true)) = half false true true ∧
    part (closingYard true false) = half true false false ∧
    part (onGrant (closingYard true false)) = half true false true ∧
    (let s : State := { closingYard true false with bus :=
      { (closingYard true false).bus with pair := .request 0 (plainRequest .retract none) false 20 } }
     s.bus.pair = .request 0 (plainRequest .retract none) false 20 ∧ part s = half true false false) := by
  refine ⟨?_, ?_, ?_, ?_, ?_, ?_⟩ <;> rfl

/-- A grant turn after a request turn, a request turn after a grant turn with a bid, and nothing to send. -/
theorem witness_ArbiterTurns :
    let b := { up.bus with bids := vset up.bus.bids 3 true, queues := vset up.bus.queues 7 [plainRequest .index none] }
    let x : State := { up with bus := { b with lastTurn := .request, grantPtr := 3 } }
    let y : State := { up with bus := { b with bids := up.bus.bids, lastTurn := .grant, requestPtr := 1 } }
    x.bus.pair = .free ∧ x.bus.lastTurn = .request ∧
    (cyclic x.bus.grantPtr).find? (fun i => vget x.bus.bids i) = some 3 ∧
    y.bus.lastTurn ≠ .request ∧
    (cyclic y.bus.requestPtr).find? (fun i => !(vget y.bus.queues i).isEmpty) = some 7 ∧
    vget y.bus.queues 7 = plainRequest .index none :: [] ∧
    (∀ i, vget up.bus.queues i = [] ∧ vget up.bus.bids i = false) := by decide +kernel

/-- A running scan with an OFFLINE stand, an ONLINE stand at each miss count that a clause names and with its
stop-hold timer stopped and running, and readings that show PRESENT and STOP_HELD, each alone, and UNSAFE. -/
theorem witness_ScanEnds : let s := yard 5
    let two := setStand s 0 { vget s.stands 0 with misses := 2, stopHold := some 3000 }
    s.bus.scan ≠ none ∧ (vget s.stands 1).condition = .offline ∧ (vget s.stands 0).condition = .online ∧
    (vget s.stands 0).errors.lost = false ∧ (vget s.stands 0).misses < 2 ∧ 2 ≤ (vget two.stands 0).misses ∧
    (vget two.stands 0).condition = .online ∧ (vget s.stands 0).stopHold = none ∧
    (vget two.stands 0).stopHold = some 3000 ∧
    ([5, 1, 4, 3].map fun x : Byte => (x.getLsbD 0, x.getLsbD 1, x.getLsbD 2)) =
      [(true, false, true), (true, false, false), (false, false, true), (true, true, false)] := by
  decide +kernel

theorem witness_StopHoldLocksOut : 
    let x : StandContext := { resetStand with condition := .online, stopHold := some 3000 }
    let s := setStand (waitingYard 249600000 (order .armed)) 0 x
    (vget s.stands 0).condition = .online ∧ (vget s.stands 0).stopHold = some 3000 ∧
    openRow s 0 = some 5 ∧ vget s.rows 5 = some (order .armed) ∧ (order .armed).state.waiting = true := by
  decide +kernel

/-- Stand 1 with a request in exchange. -/
def exchanging (r : Request) (ab : Bool) (s : State) : State :=
  { s with bus := { s.bus with pair := .request 0 r ab 20 } }

/-- A GAUGE, abandoned and not; a VERIFY with its run; an ACCEL with its sequencer. -/
theorem witness_AcceptedRequests :
    let g : Request := ⟨.gauge, some .c, none, some 70412⟩
    let v : VerifyRun := ⟨90021, .b, none⟩
    let q := { seq .accelerating with accepted := false }
    (exchanging g true (yard 5)).bus.pair = .request 0 g true 20 ∧
    (exchanging g false (yard 5)).bus.pair = .request 0 g false 20 ∧ g.arm = some .c ∧
    vget (setVerify (exchanging (plainRequest .verify (some .b)) false (yard 5)) 0 (some v)).verifies 0 = some v ∧
    v.turning = none ∧
    vget (exchanging ⟨.accel, some .b, some 38000, none⟩ false
      (committedYard 249600000 .accelerating q)).sequencers 0 = some q ∧ q.accepted = false ∧ q.newArm = .b := by
  decide +kernel

theorem witness_RefusedRequests : let r : Request := ⟨.accel, some .b, some 38000, none⟩
    let q := { seq .accelerating with accepted := false }
    let s := exchanging r false (committedYard 249600000 .accelerating q)
    let v : VerifyRun := ⟨90021, .b, none⟩
    let u := setVerify (exchanging (plainRequest .verify (some .b)) false (yard 5)) 0 (some v)
    s.bus.pair = .request 0 r false 20 ∧ r.kind.hasArm = r.arm.isSome ∧ vget s.sequencers 0 = some q ∧
    q.phase = .accelerating ∧ r.arm = some q.newArm ∧
    (vget s.rows q.row).map (·.state.isOpen) = some true ∧
    (exchanging r true s).bus.pair = .request 0 r true 20 ∧
    u.bus.pair = .request 0 (plainRequest .verify (some .b)) false 20 ∧ vget u.verifies 0 = some v := by
  decide +kernel

/-- An ONLINE stand awaited, and a grant at lapse counts 1 and 2. -/
theorem witness_SilentStands : let s := exchanging (plainRequest .status none) false (yard 5)
    let g (n : Nat) : State := setLapses 0 n (onGrant (yard 5))
    s.bus.pair = .request 0 (plainRequest .status none) false 20 ∧ (vget s.stands 0).condition = .online ∧
    (g 1).bus.pair = .grant 0 20 ∧ vget (g 1).bus.lapses 0 < 2 ∧ 2 ≤ vget (g 2).bus.lapses 0 ∧
    (g 2).bus.pair = .grant 0 20 ∧ (vget (g 2).stands 0).condition = .online := by decide +kernel

/-- Both outstanding reads, and an open index record of an ONLINE stand. -/
def reading : State := { yard 5 with bus := { up.bus with
  reads := vset up.bus.reads 0 [⟨.gauge .c, some 70413, 2000⟩, ⟨.status, none, 2000⟩]
  indexes := vset up.bus.indexes 0 (some 25000) } }

/-! A stand that leaves service with an order in each state. -/

/-- Stand 1 ONLINE with its order waiting, ACCELERATING, MATCHED, PASTING before and after its paste, and
CLOSING; its stop-hold timer runs, it has missed two readings and two grants, and a read and an index record are
open. The pair is the given one. -/
def faulting (pair : Pair) : List State :=
  [waitingYard 249600000 (order .armed), committedYard 249600000 .accelerating (seq .accelerating),
    committedYard 250939880 .matched (seq .matched), committedYard 251050000 .pasting (seq .pasting),
    committedYard 251060000 .pasting { seq .pasting with pasteFired := true }, closingYard true false].map fun s =>
  { s with
    stands := vset s.stands 0 { vget s.stands 0 with stopHold := some 3000, misses := 2 }
    bus := { reading.bus with scan := some 0, lapses := vset up.bus.lapses 0 2, pair := pair } }

/-- At each of those states every hypothesis of the clauses on a stand that leaves service: the stop hold, the
scan, the third lapse, the index limit, the two map reports, ARM EMPTIED and CLEAR STAND. -/
theorem witness_faults : ∀ s ∈ faulting (.grant 0 20),
    (openRow s 0 = some 5 ∧ (vget s.stands 0).condition = .online ∧ (vget s.stands 0).stopHold = some 3000 ∧
      (vget s.stands 0).misses = 2 ∧ s.bus.scan ≠ none ∧ (vget s.stands 0).errors.lost = false ∧
      ∀ x, x ≠ 0 → (vget s.stands x).condition ≠ .online) ∧
    (s.bus.pair = .grant 0 20 ∧ vget s.bus.lapses 0 = 2 ∧ vget s.bus.indexes 0 = some 25000 ∧
      (vget s.bus.reads 0).find? (fun x => x.read == .status) = some ⟨.status, none, 2000⟩) ∧
    ((vget s.stands 0).map = some ⟨.run, .splice, .load⟩ ∧ AloneOnLine s 0 5 ∧
      (boundReel s 0 .a).map (·.tag) = some (some 12) ∧ boundSlot s 0 .a = some 0 ∧
      boundReel s 0 .c = none) ∧
    (Addressed s 1 ∧ flagSet s 0 = false ∧ (vget s.bus.slots 0).getLsbD 2 = false ∧
      (vget s.bus.slots 0).getLsbD 0 = false) := by
  unfold AloneOnLine Addressed; decide +kernel

/-- The end of the reply time at each of them; their orders, the first four before the paste boundary and the
last two past it, and the new reel. -/
theorem witness_faults_orders :
    (∀ s ∈ faulting (.request 0 (plainRequest .status none) false 20),
      s.bus.pair = .request 0 (plainRequest .status none) false 20 ∧ openRow s 0 = some 5) ∧
    ((faulting .free).map fun s => (vget s.rows 5).map fun r =>
      (r.state, r.state.waiting, pasteFiredFor s 0, r.newArm)) =
      [some (.armed, true, false, .b), some (.accelerating, false, false, .b),
        some (.matched, false, false, .b), some (.pasting, false, false, .b), some (.pasting, false, true, .b),
        some (.closing, false, true, .b)] ∧
    ((faulting .free).map fun s => (reelOf s 90021).map fun r => (r.state, r.tag)) =
      some (.ready, some 12) :: List.replicate 5 (some (.committed, some 12)) := by decide +kernel

theorem witness_ReadAndIndexLimits :
    (vget reading.bus.reads 0).find? (fun x => x.read == .status) = some ⟨.status, none, 2000⟩ ∧
    (vget reading.bus.reads 0).find? (fun x => x.read == .gauge .c) = some ⟨.gauge .c, some 70413, 2000⟩ ∧
    vget reading.bus.indexes 0 = some 25000 ∧ (vget reading.stands 0).condition = .online := by decide +kernel

/-- A TURNING run of two intervals with one tape mark each, on a PREPARED record. -/
theorem witness_VerificationEnds : let x : Turning := ⟨false, true, 2, [1, 1], 15000⟩
    let v : VerifyRun := ⟨90021, .b, some x⟩
    let r : ReelRecord := { newReel with state := .prepared, verify := .untested }
    let s := onGrant { yard 5 with
      reels := vset up.reels 1 (some r), verifies := vset up.verifies 0 (some v) }
    vget s.verifies 0 = some v ∧ findReel s v.reel = some 1 ∧ vget s.reels 1 = some r ∧
    granted s 0 = true ∧ judgeRun x = .passed ∧ r.state = .prepared ∧ r.outside.isSome = true := by
  decide +kernel

/-- A MOUNTED record with its gauge read outstanding; the ends of the gauge's range and the values beside them. -/
theorem witness_GaugeResponse : let r := rec1 70413 .mounted (some .c) none
    let s := onGrant { reading with reels := vset up.reels 2 (some r) }
    granted s 0 = true ∧
    (vget s.bus.reads 0).find? (fun x => x.read == .gauge .c) = some ⟨.gauge .c, some 70413, 2000⟩ ∧
    findReel s 70413 = some 2 ∧ vget s.reels 2 = some r ∧ r.stand = 0 ∧ r.arm = some .c ∧
    (150 ≤ (150#16).toNat ∧ (1400#16).toNat ≤ 1400) ∧ ((149#16).toNat < 150 ∧ 1400 < (1401#16).toNat) := by
  decide +kernel

/-- A grant with a STATUS read and an index record open; a map that is the next step, one that is not, and one
that is not well made; a PREPARED record that the next step brings to SPLICE, with no run and with a run of
another arm. -/
theorem witness_MapReports : let s := onGrant reading
    let prep : ReelRecord := rec1 70412 .prepared (some .c) none
    let u : State := { s with reels := vset s.reels 2 (some prep) }
    granted s 0 = true ∧
    (vget s.bus.reads 0).find? (fun x => x.read == .status) = some ⟨.status, none, 2000⟩ ∧
    vget s.bus.indexes 0 = some 25000 ∧ (vget s.stands 0).map = some ⟨.run, .splice, .load⟩ ∧
    rotated ⟨.run, .splice, .load⟩ = ⟨.load, .run, .splice⟩ ∧
    rotated ⟨.run, .splice, .load⟩ ≠ ⟨.run, .splice, .load⟩ ∧ (vget s.stands 0).condition = .online ∧
    granted u 0 = true ∧ vget u.bus.indexes 0 = some 25000 ∧
    (vget u.stands 0).map = some ⟨.run, .splice, .load⟩ ∧ boundReel u 0 .c = some prep ∧
    armGet (⟨.load, .run, .splice⟩ : PerArm SpiderPos) .c = .splice ∧ vget u.verifies 0 = none ∧
    vget (setVerify u 0 (some ⟨90021, .b, none⟩)).verifies 0 = some ⟨90021, .b, none⟩ := by
  decide +kernel

/-- A STATUS map that shows arm B, the order's new arm, at RUN, with arms A and B shown loaded and arm C without
a record; the other hypotheses are those of `witness_faults`, and of the waiting order too. -/
theorem witness_MapReports_moved :
    let shown : PerArm ArmStatus := ⟨⟨.splice, true⟩, ⟨.run, true⟩, ⟨.load, false⟩⟩
    (armGet shown .b).position ≠ .splice ∧ (armGet shown .a).loaded = true ∧ (armGet shown .b).loaded = true ∧
    (∀ s ∈ faulting (.grant 0 20), ∀ arm, boundReel s 0 arm = none ∨ (armGet shown arm).loaded = true) := by
  intro shown
  refine ⟨by decide, rfl, rfl, fun s h arm => ?_⟩
  cases arm
  · exact .inr rfl
  · exact .inr rfl
  · exact .inl ((show ∀ s ∈ faulting (.grant 0 20), boundReel s 0 .c = none by decide +kernel) s h)

/-- An arm without a record, and with a record in each of the states that the clauses name. -/
theorem witness_ArmReports :
    let at' (r : ReelRecord) : State := onGrant { yard 5 with reels := vset up.reels 2 (some r) }
    let s := onGrant (waitingYard 249600000 (order .armed))
    boundSlot (onGrant (yard 5)) 0 .c = none ∧ granted (onGrant (yard 5)) 0 = true ∧
    (∀ x ∈ [ReelState.expired, .mounted, .prepared, .ready, .committed, .running],
      boundSlot (at' (rec1 70413 x (some .c) none)) 0 .c = some 2) ∧
    (vget (at' (rec1 70413 .expired (some .c) none)).stands 0).condition = .online ∧
    boundSlot s 0 .b = some 1 ∧ vget s.reels 1 = some { newReel with tag := some 12 } ∧
    rowOfTag s 12 = some 5 ∧ vget s.rows 5 = some (order .armed) := by decide +kernel

theorem witness_QueriesAndUnrouted : let s := onGrant (yard 5)
    granted s 0 = true ∧ boundReel s 0 .a = some oldReel ∧ (some Arm.c).bind (boundReel s 0) = none ∧
    (none : Option Arm).bind (boundReel s 0) = none := by decide +kernel

/-- Addressed frames reach the port (R178, R190). -/
theorem witness_Addressed : Addressed up 1 ∧ Addressed (yard 5) 1 := by unfold Addressed; decide +kernel

/-- The four cases: RESET held; an answer pending; another address; a broadcast that is not honoured. -/
theorem witness_FramesNotCarriedOut : (Instr.readStand 1 [1, 0]).wf = true ∧
    consoleParts (.readStand 1 [1, 0]) = some (1, 0x22, [1, 0]) ∧
    (∀ a k q, Instr.readStand 1 [1, 0] ≠ .answerFrameSeen a k q) ∧
    (NothingWaits up ∧ NothingWaits State.reset) ∧ State.reset.resetHeld = true ∧
    up.port.address ≠ 0 ∧ (1 : Byte) = up.port.address.setWidth 8 ∧
    (answering up.port 0x22 .ok []).answer.isSome = true ∧ (2 : Byte) ≠ up.port.address.setWidth 8 ∧
    (0x22 : Byte) ∉ ([0x30, 0x32, 0x33, 0x50] : List Byte) := by
  refine ⟨by decide +kernel, rfl, nofun, ?_, ?_⟩
  · unfold NothingWaits; decide +kernel
  · decide +kernel

/-- A payload one byte too long, and DATA payloads of 0, 6 and 52 bytes. -/
theorem witness_WrongLengths : consoleParts (.readStand 1 [1, 0, 0]) = some (1, 0x22, [1, 0, 0]) ∧
    (Instr.readStand 1 [1, 0, 0]).wf = true ∧ [1, 0, 0].length ≠ 2 ∧
    (([] : List Byte).length = 0 ∧ (List.replicate 6 (0 : Byte)).length % 4 ≠ 0 ∧
      48 < (List.replicate 52 (0 : Byte)).length) := by decide +kernel

/-- Items at the ends of their ranges; a number in use; a full table; the next slot. -/
theorem witness_EnterReel :
    let p : List Byte := b4 70413 ++ [1, 0, 0, 0, 96, 0x05, 0x78, 40]
    let full : State := { up with reels := Vector.ofFn fun i => some (rec1 (i.val + 1) .staged none none) }
    p.length = 12 ∧ item p 0 4 = 70413 ∧ item p 4 1 = 1 ∧ item p 7 2 = 96 ∧ item p 9 2 = 1400 ∧
    item p 11 1 = 40 ∧ 3000 ≤ 96 * 31416 / 1000 ∧ 96 * 31416 / 1000 ≤ 6000 ∧
    (vget (yard 5).reels 0).map (·.reel) = some 88114 ∧
    (∀ i, ∀ r ∈ vget (yard 5).reels i, r.reel ≠ 70413) ∧ vget (yard 5).reels 3 = none ∧
    (∀ j, j < 3 → vget (yard 5).reels j ≠ none) ∧
    (∀ i, ∀ r ∈ vget full.reels i, r.reel ≠ 70413) ∧ (∀ i, vget full.reels i ≠ none) := by decide +kernel

theorem witness_MountAndPrepare :
    let s := yard 5
    let r : ReelRecord := { newReel with state := .mounted }
    let u : State := { s with reels := vset up.reels 1 (some r) }
    let away : State := { s with reels := vset up.reels 1 (some { r with arm := some .c }) }
    findReel s (item (b4 70412 ++ [3]) 0 4) = some 2 ∧ item (b4 70412 ++ [3]) 4 1 = armCode .c ∧
    vget s.reels 2 = some (rec1 70412 .staged none none) ∧ (vget s.stands 0).condition = .online ∧
    armGet (vget s.stands 0).loaded .c = true ∧ boundSlot s 0 .c = none ∧
    findReel u (item (b4 90021) 0 4) = some 1 ∧ vget u.reels 1 = some r ∧
    armPosition u 0 .b = some .splice ∧ vget u.verifies 0 = none ∧
    vget (setVerify u 0 (some ⟨90021, .b, none⟩)).verifies 0 = some ⟨90021, .b, none⟩ ∧
    findReel away (item (b4 90021) 0 4) = some 1 ∧ armPosition away 0 .c ≠ some .splice := by decide +kernel

/-- A STAGED and a RUNNING record; items kept, and items at the ends of their ranges. -/
theorem witness_AmendAndRetire : let s := yard 5
    let keep : List Byte := b4 88114 ++ b4 0xFFFFFFFF ++ [0, 200, 0xFF, 0xFF]
    let new : List Byte := b4 70412 ++ b4 65535 ++ [0xFF, 0xFF, 0, 190]
    findReel s (item (b4 5) 0 4) = none ∧ findReel s (item (b4 70412) 0 4) = some 2 ∧
    findReel s (item (b4 88114) 0 4) = some 0 ∧ (keep.length = 12 ∧ new.length = 12) ∧
    (item keep 4 4 = 0xFFFFFFFF ∧ item keep 8 2 = 200 ∧ item keep 10 2 = 0xFFFF) ∧
    (item new 4 4 = 65535 ∧ item new 8 2 = 0xFFFF ∧ item new 10 2 = 190) ∧
    (3000 ≤ 190 * 31416 / 1000 ∧ 190 * 31416 / 1000 ≤ 6000) := by decide +kernel

/-- A MOUNTED record at RUN without a running reel; a RUNNING record with and without its order. -/
theorem witness_ThreadAndStop :
    let r := rec1 70412 .mounted (some .a) none
    let s : State := { yard 5 with reels := vset up.reels 2 (some r) }
    let w := waitingYard 249600000 (order .armed)
    let c := committedYard 251050000 .pasting (seq .pasting)
    findReel s (item (b4 70412) 0 4) = some 2 ∧ vget s.reels 2 = some r ∧ (vget s.stands 0).condition = .online ∧
    armPosition s 0 .a = some .run ∧ (∀ j, ∀ x ∈ vget s.reels j, x.stand = 0 → x.state ≠ .running) ∧
    findReel (yard 5) (item (b4 88114) 0 4) = some 0 ∧ oldReel.state = .running ∧ oldReel.tag = none ∧
    (vget w.reels 0).bind (·.tag) = some 12 ∧ rowOfTag w 12 = some 5 ∧ vget w.rows 5 = some (order .armed) ∧
    (order .armed).expiring = oldReel.reel ∧ (vget c.rows 5).map (·.state) = some .pasting ∧
    NothingWaits c := by
  unfold NothingWaits; decide +kernel

/-- A record found and not; the ends of the sections, starts and indices; a row by tag and by number. -/
theorem witness_LookupsAnswer : let s := waitingYard 249600000 (order .armed)
    findReel s (item (b4 5) 0 4) = none ∧ findReel s (item (b4 88114) 0 4) = some 0 ∧
    boundSlot s 0 .c = none ∧ boundSlot s 0 .a = some 0 ∧ item [64] 0 1 ≤ 64 ∧ 64 < item [65] 0 1 ∧
    rowOfTag s (item [0, 12, 1] 1 1) = some 5 ∧ item [1, 5, 0] 1 1 = (5 : RowId).val ∧
    vget s.rows 4 = none ∧ rowOfTag s (item [0, 63, 1] 1 1) = none ∧
    item [8, 2] 0 1 = (7 : StandId).val + 1 ∧ 2 < item [8, 3] 1 1 ∧ item [4, 8] 1 1 ≤ 8 ∧ 8 < item [4, 9] 1 1 ∧
    item [0, 8, 13] 2 1 = (13 : Fin 14).val ∧ item [1, 4, 3] 2 1 = (3 : Fin 4).val ∧ 1 < item [2, 1, 0] 0 1 := by
  decide +kernel

/-- Stand 1 with its running and its READY reel; the line otherwise without orders, both commit points ahead. -/
theorem witness_OrderSplice : let s := yard 249000000
    let p : List Byte := [63, 1] ++ b4 90021
    p.length = 6 ∧ item p 0 1 ≤ 63 ∧ item p 1 1 = (0 : StandId).val + 1 ∧ item p 2 4 = 90021 ∧
    rowOfTag s 63 = none ∧ (vget s.stands 0).condition = .online ∧ openRow s 0 = none ∧
    indexInProgress s 0 = false ∧ runningReel s 0 = some oldReel ∧ armPosition s 0 .a = some .run ∧
    (reportedRemaining s oldReel).isSome = true ∧ reelOf s 90021 = some newReel ∧
    armPosition s 0 .b = some .splice ∧
    ((List.finRange 16).map fun k => s.allocStart + k).find? (fun k => (vget s.rows k).isNone) = some 0 ∧
    vget s.schedules (lineOf s 0) = [] ∧ findReel s 88114 = some 0 ∧ findReel s 90021 = some 1 ∧
    splicePositions s 0 = some (251038280, 251288280) ∧ newReel.outside = some 38000 ∧
    (let a := (vget s.lines (lineOf s 0)).speed * standParam s 0 3 / 1000 + 3 * 38000
     2147483648 ≤ (standPos s 0 - ((251038280 : Pos) - BitVec.ofNat 32 a)).toNat ∧
      2147483648 ≤ (standPos s 0 - ((251288280 : Pos) - BitVec.ofNat 32 a)).toNat) := by decide +kernel

/-- Each refusal of R70, met with the tests before it passed. -/
theorem witness_OrderSplice_refusals :
    let s := yard 249000000
    let busy := waitingYard 249600000 (order .armed)
    let off := setStand s 0 { vget s.stands 0 with condition := .fault }
    let closed (n : Nat) : OrderRow := { order .done with tag := n, stand := 1 }
    let full : State := { s with rows := Vector.ofFn fun i => some (closed i.val) }
    let found (u : State) := ((List.finRange 16).map fun k => u.allocStart + k).find? fun k => (vget u.rows k).isNone
    63 < item ([64, 1] ++ b4 90021) 0 1 ∧ item ([63, 0] ++ b4 90021) 1 1 = 0 ∧ 8 < item ([63, 9] ++ b4 90021) 1 1 ∧
    item ([63, 1] ++ b4 0) 2 4 = 0 ∧ NothingWaits s ∧ NothingWaits busy ∧ NothingWaits off ∧ NothingWaits full ∧
    rowOfTag busy 12 ≠ none ∧ rowOfTag s 63 = none ∧ (vget off.stands 0).condition ≠ .online ∧
    rowOfTag busy 63 = none ∧ openRow busy 0 ≠ none ∧
    (runningReel up 0 = none ∧ rowOfTag up 63 = none) ∧ reelOf s 5 = none ∧
    (reelOf s 70412).map (·.state) = some .staged ∧ rowOfTag full 63 = none ∧ openRow full 0 = none ∧
    found full = none ∧ reelOf full 90021 = some newReel ∧ newReel.arm = some .b ∧
    armPosition full 0 .b = some .splice ∧ runningReel full 0 = some oldReel := by
  unfold NothingWaits; decide +kernel

/-- A HELD row below the splice floor before and at its latest commit point, and at the floor, and a row in each other state. -/
theorem witness_OrderCommands :
    let s := waitingYard 249600000 (order .held)
    let slow := setLine s 0 ⟨249600000, 0, 39999, false, 10⟩
    let floor := setLine s 0 ⟨249600000, 0, 40000, false, 10⟩
    item [12] 0 1 ≤ 63 ∧ (rowOfTag up (item [12] 0 1) = none ∧ rowOfTag s (item [12] 0 1) = some 5) ∧
    (vget slow.rows 5 = some (order .held) ∧ standSpeed slow 0 < (vget slow.settings.floors (lineOf slow 0)).splice) ∧
    2147483648 ≤ (standPos slow 0 - ((251288280 : Pos) - BitVec.ofNat 32 1554000)).toNat ∧
    (let late := setLine s 0 ⟨249734280, 0, 39999, false, 10⟩
     vget late.rows 5 = some (order .held) ∧ NothingWaits late ∧ rowOfTag late 12 = some 5 ∧
      (standPos late 0 - ((251288280 : Pos) - BitVec.ofNat 32 1554000)).toNat < 2147483648) ∧
    (vget floor.settings.floors (lineOf floor 0)).splice ≤ standSpeed floor 0 ∧
    (∀ x ∈ [OrderState.armed, .accelerating, .pasting, .dropped],
      rowOfTag (waitingYard 5 (order x)) 12 = some 5) ∧ NothingWaits s ∧ NothingWaits up := by
  unfold NothingWaits; decide +kernel

/-- A stand of each condition; an INDEX in progress and a verification; a raised flag; STOP_HELD with PRESENT and
without; PRESENT and not. -/
theorem witness_StandCommands :
    let s := yard 5
    let seen (b : SlotReading) : State := { s with bus := { s.bus with slots := vset s.bus.slots 0 b } }
    item [1] 0 1 = (0 : StandId).val + 1 ∧ item [0] 0 1 = 0 ∧ 8 < item [9] 0 1 ∧
    (vget s.stands 0).condition = .online ∧ openRow s 0 = none ∧ indexInProgress s 0 = false ∧
    vget s.verifies 0 = none ∧ (vget up.stands 0).condition ≠ .online ∧
    openRow (waitingYard 5 (order .armed)) 0 ≠ none ∧ NothingWaits s ∧ NothingWaits reading ∧
    (vget reading.stands 0).condition = .online ∧ openRow reading 0 = none ∧ indexInProgress reading 0 = true ∧
    vget (setVerify s 0 (some ⟨90021, .b, none⟩)).verifies 0 ≠ none ∧
    (vget (seen 4).bus.slots 0).getLsbD 2 = true ∧ (vget (seen 4).bus.slots 0).getLsbD 0 = false ∧
    flagSet (setPort s { s.port with flags := 1 }) 0 = true ∧ (vget (seen 5).bus.slots 0).getLsbD 2 = true ∧
    flagSet (seen 1) 0 = false ∧ (vget (seen 1).bus.slots 0).getLsbD 2 = false ∧
    (vget (seen 1).bus.slots 0).getLsbD 0 = true ∧ (vget (seen 0).bus.slots 0).getLsbD 0 = false := by
  unfold NothingWaits; decide +kernel

/-- Used and unused indices at the ends of their ranges; a stand with and without a running reel; open runs. -/
theorem witness_SettingCommands :
    let p : List Byte := [0, 1, 13] ++ b4 2
    up.resetHeld = false ∧ NothingWaits up ∧ p.length = 7 ∧ item p 2 1 = (13 : Fin 14).val ∧
    item [0, 8, 14] 2 1 = 14 ∧ item [1, 4, 4] 2 1 = 4 ∧ item [1, 4, 3] 2 1 = (3 : Fin 4).val ∧
    (runningReel (yard 5) 0).isSome = true ∧ runningReel up 0 = none ∧ openRow up 0 = none ∧
    (setPort up { up.port with run := some ⟨.stand 0, 13⟩ }).port.run = some ⟨.stand 0, 13⟩ ∧
    (setPort up { up.port with run := some ⟨.line 3, 3⟩ }).port.run = some ⟨.line 3, 3⟩ ∧
    (setPort up { up.port with run := some ⟨.stand 0, 256⟩ }).port.run = some ⟨.stand 0, 256⟩ ∧
    up.port.run = none := by
  unfold NothingWaits; decide +kernel

/-- RESTART with nothing in progress, and with each of the four refusals. -/
theorem witness_ModeAndRestart :
    let s := yard 5
    (item [0] 0 1 = 0 ∧ item [1] 0 1 = 1 ∧ 1 < item [2] 0 1) ∧
    (∀ i, ∀ row ∈ vget s.rows i, row.state.committed = false) ∧
    (∀ st, indexInProgress s st = false ∧ vget s.verifies st = none ∧ vget s.bus.queues st = [] ∧
      inExchange s st .retract = false) ∧
    (vget (committedYard 5 .matched (seq .matched)).rows 5).map (·.state.committed) = some true ∧
    indexInProgress reading 0 = true ∧ vget (setVerify s 0 (some ⟨90021, .b, none⟩)).verifies 0 ≠ none ∧
    inExchange (exchanging (plainRequest .retract none) false s) 0 .retract = true := by decide +kernel

end Sys2Proof.Tests
end

section
/-! The counters of the web lines and the arm contexts: what keeps the line speeds and the tape counts in
their ranges (R3, R9). -/

namespace Sys2Proof.Machine

open Sys2Proof

/-- Line speeds and tape counts are in their ranges (R3, R9). -/
def CountersInRange (s : State) : Prop := LinesInRange s ∧ TapeCountsInRange s

/-- The state that a command leaves, if any, has its counters in range. -/
def LeavesCounters (x : Result) : Prop := ∀ t, x = .next t → CountersInRange t

section Counters

variable {s t : State}

/-- What keeps the parts of `Keeps` keeps the counters in range. -/
theorem Keeps.counters (k : Keeps s t) (h : CountersInRange s) : CountersInRange t :=
  ⟨fun l => by rw [k.lines]; exact h.1 l, k.tapes h.2⟩

/-- The ranges are those of the lines and the arms alone. -/
theorem CountersInRange.of_same (h : CountersInRange s) (hl : t.lines = s.lines) (ha : t.arms = s.arms) :
    CountersInRange t :=
  ⟨fun l => by rw [hl]; exact h.1 l, fun st arm => by rw [armContext, ha]; exact h.2 st arm⟩

/-- A counter replaced by one whose speed is in range. -/
theorem setLine_counters (h : CountersInRange s) {l : LineId} {c : LineCounter}
    (hc : c.speed ≤ maxSpeed) : CountersInRange (setLine s l c) := by
  refine ⟨fun l' => ?_, h.2⟩
  simp only [setLine_lines, vget_vset]
  split
  · exact hc
  · exact h.1 l'

theorem CountersInRange.keep (h : CountersInRange s) (k : Keeps s s → Keeps s t) : CountersInRange t :=
  (k (.refl s)).counters h

theorem reset_counters : CountersInRange State.reset :=
  ⟨fun l => by simp [State.reset], fun st arm => by simp [State.reset, armContext, emptyArm]⟩

theorem leaves_next (h : CountersInRange t) : LeavesCounters (.next t) := fun _ e => by cases e; exact h

/-! ### Line events -/

theorem pulse_counters (h : CountersInRange s) (l : LineId) :
    CountersInRange (setLine s l (pulse (vget s.lines l))) := setLine_counters h (h.1 l)

theorem endWindow_counters (h : CountersInRange s) (l : LineId) (c : LineCounter) :
    CountersInRange (setLine s l (endWindow c)) := setLine_counters h (Nat.min_le_right ..)

theorem execPowerOnReset_counters (a : BitVec 5) : LeavesCounters (execPowerOnReset a s) :=
  leaves_next (reset_counters.of_same rfl rfl)

theorem execResetRelease_counters (h : CountersInRange s) : LeavesCounters (execResetRelease s) := by
  unfold execResetRelease
  split
  · exact leaves_next (h.of_same rfl rfl)
  · exact leaves_next h

theorem execEncoderPulse_counters (h : CountersInRange s) (l : LineId) :
    LeavesCounters (execEncoderPulse l s) :=
  leaves_next ((pulse_counters h l).keep fun k => arbitrate_keeps (reportLine_keeps k))

theorem execSpeedWindowEnd_counters (h : CountersInRange s) (l : LineId) :
    LeavesCounters (execSpeedWindowEnd l s) := by
  have h1 : CountersInRange (setLine (reachTime (vget s.lines l).windowEnd s) l
      (endWindow (vget s.lines l))) := endWindow_counters (h.of_same rfl rfl) l _
  have h2 := h1.keep fun k => ite_keeps (c := ((endWindow (vget s.lines l)).overspeed &&
    !(vget s.lines l).overspeed) = true) (raiseLine_keeps (l := l) k) k
  exact leaves_next ((CountersInRange.of_same (t := bringFloors l _) h2 rfl rfl).keep
    fun k => arbitrate_keeps (handWindowEnd_keeps k))

theorem execPulseEnd_counters (h : CountersInRange s) (st : StandId) (o : OutputLine) :
    LeavesCounters (execPulseEnd st o s) := by
  unfold execPulseEnd
  split
  · exact leaves_next h
  · exact leaves_next (h.of_same rfl rfl)

theorem execRevolutionMark_counters (h : CountersInRange s) (st : StandId) (arm : Arm) :
    LeavesCounters (execRevolutionMark st arm s) := by
  have mark : Keeps s s → Keeps s (setArmContext s st arm (markArm (armContext s st arm) (standPos s st))) :=
    fun k => setArmContext_keeps k (Nat.zero_le _)
  unfold execRevolutionMark
  dsimp only
  split
  · exact leaves_next (h.keep fun k => verifyMark_keeps (mark k))
  · exact leaves_next (h.keep fun k => arbitrate_keeps (verifyMark_keeps (sequencerInterval_keeps
      (trackerInterval_keeps (mark k)))))

theorem execTapeMark_counters (h : CountersInRange s) (st : StandId) : LeavesCounters (execTapeMark st s) := by
  unfold execTapeMark
  split
  · exact leaves_next h
  · exact leaves_next (h.keep fun k => arbitrate_keeps (sequencerTape_keeps
      (setArmContext_keeps k (Nat.min_le_left ..))))

/-! ### The scan and the bus -/

theorem startScan_counters (h : CountersInRange s) : CountersInRange (startScan s) := h.of_same rfl rfl

theorem reachTime_counters (h : CountersInRange s) (n : Nat) : CountersInRange (reachTime n s) :=
  h.of_same rfl rfl

theorem execScanCall_counters (h : CountersInRange s) : LeavesCounters (execScanCall s) := by
  unfold execScanCall
  split
  · exact leaves_next (startScan_counters h)
  · exact leaves_next h

theorem execQuietTimer_counters (h : CountersInRange s) : LeavesCounters (execQuietTimer s) := by
  unfold execQuietTimer
  split
  · exact leaves_next (startScan_counters (reachTime_counters h _))
  · exact leaves_next h

theorem execScanEnd_counters (h : CountersInRange s) (slots : Vector Byte 8) :
    LeavesCounters (execScanEnd slots s) := by
  unfold execScanEnd
  split
  · exact leaves_next ((CountersInRange.of_same (t := endScan slots s) h rfl rfl).keep fun k =>
      arbitrate_keeps (foldl_keeps _ (fun _ _ => takeReading_keeps) _ k))
  · exact leaves_next h

theorem execStopHoldTimerEnd_counters (h : CountersInRange s) (st : StandId) :
    LeavesCounters (execStopHoldTimerEnd st s) := by
  unfold execStopHoldTimerEnd
  dsimp only
  split
  · exact leaves_next h
  · split
    · next e _ ho =>
      exact leaves_next ((reachTime_counters h e).keep fun k =>
        arbitrate_keeps (leaveService_keeps k (by simpa [reachTime] using ho) (by simp)))
    · exact leaves_next (h.of_same rfl rfl)

theorem acceptRequest_keeps {st : StandId} {r : Request} {u : State} (h : Keeps s u) :
    Keeps s (acceptRequest st r u) := by
  have turn : Keeps s (turnRun st r.arm u) := by
    unfold turnRun
    split
    · exact ite_keeps (setVerify_keeps h) h
    · exact h
  unfold acceptRequest
  split
  · split
    · exact openRead_keeps h
    · exact h
  · exact openRead_keeps h
  · exact setIndexRecord_keeps h
  · exact turn
  · split
    · exact setSequencer_keeps h
    · exact h
  all_goals exact h

theorem refuseRequest_keeps {st : StandId} {r : Request} {u : State} (h : Keeps s u) :
    Keeps s (refuseRequest st r u) := by
  have drop : Keeps s (dropWaitingRun st r.arm u) := by
    unfold dropWaitingRun
    split
    · exact ite_keeps (setVerify_keeps h) h
    · exact h
  unfold refuseRequest
  split
  · split
    · exact sequencerClose_keeps h
    · exact h
  · exact drop
  · exact ite_keeps (endRetract_keeps h) h
  all_goals exact h

theorem writeRefusal_keeps {st : StandId} {r : Request} {why : StandReason} {u : State} (h : Keeps s u) :
    Keeps s (writeRefusal st r why u) := by
  unfold writeRefusal
  split
  · exact writeOutcome_keeps h
  · exact h

theorem execAccept_counters (h : CountersInRange s) (st : StandId) (k : RequestKind) (arm : Option Arm) :
    LeavesCounters (execAccept st k arm s) := by
  unfold execAccept
  split
  · exact leaves_next h
  · exact leaves_next (h.keep fun k => arbitrate_keeps
      (ite_keeps (freePair_keeps k) (acceptRequest_keeps (freePair_keeps k))))

theorem execRefuse_counters (h : CountersInRange s) (st : StandId) (k : RequestKind) (arm : Option Arm)
    (why : StandReason) : LeavesCounters (execRefuse st k arm why s) := by
  unfold execRefuse
  split
  · exact leaves_next h
  · exact leaves_next (h.keep fun k => arbitrate_keeps
      (ite_keeps (freePair_keeps k) (refuseRequest_keeps (writeRefusal_keeps (freePair_keeps k)))))

theorem execReplyTimeEnd_counters (h : CountersInRange s) : LeavesCounters (execReplyTimeEnd s) := by
  unfold execReplyTimeEnd
  split
  · exact leaves_next ((reachTime_counters h _).keep fun k =>
      arbitrate_keeps (takeHardError_keeps (freePair_keeps k)))
  · exact leaves_next h

theorem execGrantLapse_counters (h : CountersInRange s) : LeavesCounters (execGrantLapse s) := by
  unfold execGrantLapse
  split
  · exact leaves_next ((reachTime_counters h _).keep fun k => arbitrate_keeps
      (ite_keeps (setLapses_keeps (freePair_keeps k))
        (takeHardError_keeps (setLapses_keeps (freePair_keeps k)))))
  · exact leaves_next h

theorem execReadLimit_counters (h : CountersInRange s) (st : StandId) (k : ReadKind) :
    LeavesCounters (execReadLimit st k s) := by
  unfold execReadLimit
  split
  · exact leaves_next h
  · cases k <;> exact leaves_next ((reachTime_counters h _).keep fun k =>
      writeOutcome_keeps (closeRead_keeps k))

theorem execIndexTimeout_counters (h : CountersInRange s) (st : StandId) :
    LeavesCounters (execIndexTimeout st s) := by
  unfold execIndexTimeout
  split
  · exact leaves_next h
  · exact leaves_next ((reachTime_counters h _).keep fun k => arbitrate_keeps
      (takeHardError_keeps (writeOutcome_keeps (setIndexRecord_keeps k))))

theorem execVerifyTimeout_counters (h : CountersInRange s) (st : StandId) :
    LeavesCounters (execVerifyTimeout st s) := by
  unfold execVerifyTimeout
  split
  · exact leaves_next h
  · split
    · exact leaves_next h
    · exact leaves_next ((reachTime_counters h _).keep fun k => arbitrate_keeps
        (ite_keeps (repeatRun_keeps k) (finishRun_keeps k)))

theorem execCutWaitEnd_counters (h : CountersInRange s) (st : StandId) :
    LeavesCounters (execCutWaitEnd st s) := by
  unfold execCutWaitEnd
  split
  · exact leaves_next h
  · exact leaves_next ((reachTime_counters h _).keep fun k => arbitrate_keeps
      (tryCloseDone_keeps (modSequencer_keeps k)))

theorem execRetractTimeout_counters (h : CountersInRange s) (st : StandId) :
    LeavesCounters (execRetractTimeout st s) := by
  unfold execRetractTimeout
  split
  · exact leaves_next h
  · exact leaves_next ((reachTime_counters h _).keep fun k => arbitrate_keeps (endRetractWait_keeps k))

/-- A message on a grant keeps the counters in range when what it hands on does. -/
theorem onGrant_counters (h : CountersInRange s) (st : StandId) {f : State → State}
    (hf : ∀ u, CountersInRange u → CountersInRange (f u)) : LeavesCounters (onGrant st f s) := by
  unfold onGrant
  split
  · exact leaves_next ((hf s h).keep fun k => arbitrate_keeps (endGrant_keeps k))
  · exact leaves_next h

theorem withOutside_keepsRecord (c : Nat) : KeepsRecord (withOutside c) := by
  intro r; unfold withOutside; dsimp only; split <;> exact ⟨rfl, rfl, rfl, rfl, rfl⟩

theorem applyGauge_keeps {st : StandId} {arm : Arm} {n : Option Nat} {d : Nat} {u : State} (h : Keeps s u) :
    Keeps s (applyGauge st arm n d u) := by
  unfold applyGauge
  split
  · exact ite_keeps (ite_keeps (writeOutcome_keeps (modReel_keeps h (withOutside_keepsRecord _)))
      (writeOutcome_keeps h)) h
  · exact h

theorem takeResponse_keeps {st : StandId} {body : ReadResponse} {u : State} (h : Keeps s u) :
    Keeps s (takeResponse st body u) := by
  unfold takeResponse
  split <;> split
  · exact applyGauge_keeps (closeRead_keeps h)
  · exact h
  · exact takeStatus_keeps (closeRead_keeps h)
  · exact h

theorem takeVerifyDone_keeps {st : StandId} {arm : Arm} {u : State} (h : Keeps s u) :
    Keeps s (takeVerifyDone st arm u) := by
  unfold takeVerifyDone
  split
  · exact h
  · split
    · exact h
    · exact ite_keeps (ite_keeps (repeatRun_keeps h) (finishRun_keeps h)) h

/-- What every message on a grant hands on keeps the counters in range. -/
theorem onGrant_keeps_counters (h : CountersInRange s) (st : StandId) {f : State → State}
    (hf : ∀ u, Keeps u (f u)) : LeavesCounters (onGrant st f s) :=
  onGrant_counters h st fun u => (hf u).counters

theorem execIndexDone_counters (h : CountersInRange s) (st : StandId) (x y z : SpiderPos) :
    LeavesCounters (execIndexDone st x y z s) := by
  refine onGrant_keeps_counters h st fun u => ?_
  split
  · exact takeIndexDone_keeps (setIndexRecord_keeps (.refl u))
  · exact .refl u

theorem execArmHome_counters (h : CountersInRange s) (st : StandId) :
    LeavesCounters (execArmHome st s) := by
  refine onGrant_keeps_counters h st fun u => ?_
  split
  · exact endRetract_keeps (.refl u)
  · exact .refl u

theorem execCutConfirmed_counters (h : CountersInRange s) (st : StandId) :
    LeavesCounters (execCutConfirmed st s) := by
  refine onGrant_keeps_counters h st fun u => ?_
  split
  · exact tryCloseDone_keeps (modSequencer_keeps (.refl u))
  · exact .refl u

theorem execArmLoaded_counters (h : CountersInRange s) (st : StandId) (arm : Arm) :
    LeavesCounters (execArmLoaded st arm s) :=
  onGrant_keeps_counters (f := fun u => raiseStand st (setLoaded st arm true u)) h st fun u =>
    raiseStand_keeps (setLoaded_keeps (.refl u))

theorem execArmEmptied_counters (h : CountersInRange s) (st : StandId) (arm : Arm) :
    LeavesCounters (execArmEmptied st arm s) :=
  onGrant_keeps_counters (f := fun u => raiseStand st (armReportedEmpty st arm u)) h st fun u =>
    raiseStand_keeps (armReportedEmpty_keeps (.refl u))

theorem execQueryArm_counters (h : CountersInRange s) (st : StandId) (arm : Option Arm) :
    LeavesCounters (execQueryArm st arm s) :=
  onGrant_counters h st fun u hu => hu.of_same (t := sendReport st arm u) rfl rfl

/-! ### The console -/

/-- A command frame keeps the counters in range when its body does. -/
theorem takeCommand_counters (h : CountersInRange s) (k : FrameClass) (a c : Byte)
    {body : State → State × Reply} (hb : ∀ u, CountersInRange u → CountersInRange (body u).1) :
    CountersInRange (takeCommand k a c body s) := by
  have run : CountersInRange (runAfter k s) := by cases k <;> exact h.of_same rfl rfl
  unfold takeCommand
  split
  · exact h
  · split
    · split
      · exact h
      · exact (hb _ run).of_same rfl rfl
    · split
      · exact hb _ run
      · exact run

theorem answerCommand_counters (h : CountersInRange s) (k : FrameClass) (a c : Byte)
    {body : State → State × Reply} (hb : ∀ u, CountersInRange u → CountersInRange (body u).1) :
    LeavesCounters (answerCommand k a c body s) := leaves_next (takeCommand_counters h k a c hb)

theorem answerAndSend_counters (h : CountersInRange s) (k : FrameClass) (a c : Byte)
    {body : State → State × Reply} (hb : ∀ u, CountersInRange u → CountersInRange (body u).1) :
    LeavesCounters (answerAndSend k a c body s) :=
  leaves_next ((takeCommand_counters h k a c hb).keep arbitrate_keeps)

theorem withLength_counters (n : Nat) (p : List Byte) {body : State → State × Reply}
    (hb : ∀ u, CountersInRange u → CountersInRange (body u).1) (u : State) (hu : CountersInRange u) :
    CountersInRange (withLength n p body u).1 := by
  unfold withLength
  split
  · exact hb u hu
  · exact hu

/-- A command that only looks things up. -/
theorem lookup_counters {body : State → State × Reply} (hb : ∀ u, (body u).1 = u) (u : State)
    (hu : CountersInRange u) : CountersInRange (body u).1 := by rw [hb u]; exact hu

/-! ### The bodies of the console's commands -/

variable {u : State}

theorem answerSlot_state (i : SlotId) (u : State) : (answerSlot i u).1 = u := by
  unfold answerSlot; split <;> rfl

theorem ite_counters {x y : State × Reply} {c : Prop} [Decidable c] (h : CountersInRange x.1)
    (k : CountersInRange y.1) : CountersInRange (if c then x else y).1 := by split <;> assumption

theorem readReelBody_state (p : List Byte) (u : State) : (readReelBody p u).1 = u := by
  unfold readReelBody
  split
  · rfl
  · exact answerSlot_state _ u

theorem readArmBody_state (p : List Byte) (u : State) : (readArmBody p u).1 = u := by
  unfold readArmBody
  split
  · split
    · rfl
    · exact answerSlot_state _ u
  · rfl

theorem listReelsBody_state (p : List Byte) (u : State) : (listReelsBody p u).1 = u := by
  unfold listReelsBody; split <;> rfl

theorem readOrderBody_state (p : List Byte) (u : State) : (readOrderBody p u).1 = u := by
  unfold readOrderBody; dsimp only; (repeat' split) <;> rfl

theorem readStandBody_state (p : List Byte) (u : State) : (readStandBody p u).1 = u := by
  unfold readStandBody; (repeat' split) <;> rfl

theorem readLineBody_state (p : List Byte) (u : State) : (readLineBody p u).1 = u := by
  unfold readLineBody; (repeat' split) <;> rfl

theorem readParameterBody_state (p : List Byte) (u : State) : (readParameterBody p u).1 = u := by
  unfold readParameterBody; split <;> rfl

theorem enterReelBody_counters (p : List Byte) (h : CountersInRange u) :
    CountersInRange (enterReelBody p u).1 := by
  unfold enterReelBody; dsimp only; (repeat' split) <;> exact h.of_same rfl rfl

theorem mountReelBody_counters (p : List Byte) (h : CountersInRange u) :
    CountersInRange (mountReelBody p u).1 := by
  unfold mountReelBody; (repeat' split) <;> exact h.of_same rfl rfl

theorem declare_keeps {r : ReelRecord} (h : Keeps s u) : Keeps s (declare r u) := by
  unfold declare
  split
  · exact startIfDue_keeps h
  · exact ite_keeps (setVerify_keeps h) h

theorem preparedBody_counters (p : List Byte) (h : CountersInRange u) :
    CountersInRange (preparedBody p u).1 := by
  unfold preparedBody
  split
  · exact h
  · split
    · exact h
    · split
      · exact h
      · split
        · exact h
        · exact (CountersInRange.of_same (t := setReel u _ _) h rfl rfl).keep declare_keeps

theorem amendReelBody_counters (p : List Byte) (h : CountersInRange u) :
    CountersInRange (amendReelBody p u).1 := by
  unfold amendReelBody; dsimp only; (repeat' split) <;> exact h.of_same rfl rfl

theorem retireReelBody_counters (p : List Byte) (h : CountersInRange u) :
    CountersInRange (retireReelBody p u).1 := by
  unfold retireReelBody; (repeat' split) <;> exact h.of_same rfl rfl

theorem threadReelBody_counters (p : List Byte) (h : CountersInRange u) :
    CountersInRange (threadReelBody p u).1 := by
  unfold threadReelBody
  split
  · exact h
  · split
    · exact h
    · refine ite_counters h (ite_counters h ?_)
      split
      · exact h
      · exact ite_counters h ((CountersInRange.of_same (t := setReel u _ _) h rfl rfl).keep fun k =>
          startTracker_keeps (setArmContext_keeps k (Nat.zero_le _)))

theorem cancelStopped_keeps {x : Option (RowId × OrderRow)} (h : Keeps s u) :
    Keeps s (cancelStopped x u) := by
  unfold cancelStopped
  split
  · exact h
  · split
    case h_1 | h_2 | h_3 | h_4 => exact closeOrder_keeps h
    all_goals exact h

theorem stopReelBody_counters (p : List Byte) (h : CountersInRange u) :
    CountersInRange (stopReelBody p u).1 := by
  unfold stopReelBody
  split
  · exact h
  · split
    · exact h
    · split
      · exact h
      · dsimp only
        split
        · exact h
        · exact (CountersInRange.of_same (t := setReel u _ _) h rfl rfl).keep fun k =>
            cancelStopped_keeps (stopTracker_keeps k)

theorem createOrder_counters (i : RowId) (row : OrderRow) (h : CountersInRange u) :
    CountersInRange (createOrder i row u) :=
  (CountersInRange.of_same (t := setAllocStart (setRow u i (some row)) (i + 1)) h rfl rfl).keep fun k =>
    joinSchedule_keeps (raiseRow_keeps (modReel_keeps (modReel_keeps k fun _ => ⟨rfl, rfl, rfl, rfl, rfl⟩)
      fun _ => ⟨rfl, rfl, rfl, rfl, rfl⟩))

theorem placeOrder_counters (tag : Nat) (st : StandId) (n : Nat) (h : CountersInRange u) :
    CountersInRange (placeOrder tag st n u).1 := by
  unfold placeOrder
  split
  · exact h
  · split
    · exact h
    · split
      · exact h
      · split
        · exact h
        · split
          · exact h
          · exact createOrder_counters _ _ h

theorem orderSpliceBody_counters (p : List Byte) (h : CountersInRange u) :
    CountersInRange (orderSpliceBody p u).1 := by
  unfold orderSpliceBody
  dsimp only
  split
  · exact h
  · exact ite_counters h (ite_counters h (ite_counters h (ite_counters h (placeOrder_counters _ _ _ h))))

theorem withOrder_counters (p : List Byte) {f : RowId → OrderRow → State → State × Reply}
    (hf : ∀ i row, CountersInRange (f i row u).1) (h : CountersInRange u) :
    CountersInRange (withOrder p f u).1 := by
  unfold withOrder
  dsimp only
  split
  · exact h
  · split
    · exact h
    · split
      · exact h
      · exact hf _ _

theorem confirmBody_counters (p : List Byte) (h : CountersInRange u) :
    CountersInRange (confirmBody p u).1 := by
  refine withOrder_counters p (fun i row => ?_) h
  unfold confirmRow
  split
  · exact h.of_same rfl rfl
  · exact (CountersInRange.of_same (t := setRow u i _) h rfl rfl).keep fun k =>
      testOrder_keeps (raiseRow_keeps k)
  all_goals exact h

theorem cancelOrderBody_counters (p : List Byte) (h : CountersInRange u) :
    CountersInRange (cancelOrderBody p u).1 := by
  refine withOrder_counters p (fun i row => ?_) h
  unfold cancelRow
  split
  case h_1 | h_2 | h_3 | h_4 => exact h.keep closeOrder_keeps
  all_goals exact h

theorem releaseOrderBody_counters (p : List Byte) (h : CountersInRange u) :
    CountersInRange (releaseOrderBody p u).1 := by
  refine withOrder_counters p (fun i row => ?_) h
  unfold releaseRow
  split
  · exact h
  · exact (CountersInRange.of_same (t := setRow u i none) h rfl rfl).keep raiseRow_keeps

theorem indexStandBody_counters (p : List Byte) (h : CountersInRange u) :
    CountersInRange (indexStandBody p u).1 := by
  unfold indexStandBody; (repeat' split) <;> exact h.of_same rfl rfl

theorem settleCondition_counters (st : StandId) (h : CountersInRange u) :
    CountersInRange (settleCondition st u) := by
  have off : CountersInRange (modStand st (fun x => { x with condition := .offline }) u) :=
    h.of_same rfl rfl
  unfold settleCondition
  dsimp only
  split
  · exact (CountersInRange.of_same (t := queueRequest st _ (modStand st _ u)) h rfl rfl).keep raiseStand_keeps
  · split
    · exact off
    · exact off.keep fun k => faultOrder_keeps (raiseStand_keeps k)
    · exact off.keep raiseStand_keeps
    · exact off.keep raiseStand_keeps

theorem clearStandBody_counters (p : List Byte) (h : CountersInRange u) :
    CountersInRange (clearStandBody p u).1 := by
  unfold clearStandBody
  split
  · exact h
  · exact ite_counters h (settleCondition_counters _ (h.of_same rfl rfl))

theorem writeStand_counters (st : StandId) (i : Fin 14) (v : Nat) (h : CountersInRange u) :
    CountersInRange (writeStand st i v u).1 := by
  unfold writeStand
  dsimp only
  split
  · split
    · exact h
    · split
      · exact h
      · exact (CountersInRange.of_same (t := storeStand st i _ u) h rfl rfl).keep fun k =>
          setArms_keeps k fun _ arm => by simp [emptyArm]
  · exact h.of_same rfl rfl

theorem writeLine_counters (l : LineId) (i : Fin 4) (v : Nat) (h : CountersInRange u) :
    CountersInRange (writeLine l i v u) := by
  have store : CountersInRange (storeLine l i (clampTo (vget lineSpecs i) v) u) := h.of_same rfl rfl
  exact store.keep fun k => ite_keeps (evaluate_keeps k) k

theorem writeParam_counters (t : Target) (i v : Nat) (h : CountersInRange u) :
    CountersInRange (writeParam t i v u).1 := by
  unfold writeParam
  split <;> split
  · exact writeStand_counters _ _ _ h
  · exact h
  · exact writeLine_counters _ _ _ h
  · exact h

theorem writeRun_counters (t : Target) (i : Nat) (vs : List Nat) (h : CountersInRange u) :
    CountersInRange (writeRun t i vs u).1 := by
  induction vs generalizing i u with
  | nil => exact h
  | cons v vs ih => exact ih (i + 1) (writeParam_counters t i v h)

theorem setParameterBody_counters (p : List Byte) (h : CountersInRange u) :
    CountersInRange (setParameterBody p u).1 := by
  unfold setParameterBody
  split
  · exact h
  · exact writeParam_counters _ _ _ h

theorem parameterRunBody_counters (p : List Byte) (h : CountersInRange u) :
    CountersInRange (parameterRunBody p u).1 := by
  unfold parameterRunBody
  split
  · exact h
  · exact h.of_same rfl rfl

theorem dataBody_counters (p : List Byte) (h : CountersInRange u) : CountersInRange (dataBody p u).1 := by
  unfold dataBody
  split
  · exact h
  · split
    · exact h
    · exact (writeRun_counters _ _ _ h).of_same rfl rfl

theorem takeScanMode_counters (b : Bool) (h : CountersInRange u) : CountersInRange (takeScanMode b u) := by
  unfold takeScanMode; dsimp only; split <;> exact h.of_same rfl rfl

theorem scanModeBody_counters (p : List Byte) (h : CountersInRange u) :
    CountersInRange (scanModeBody p u).1 := by
  unfold scanModeBody
  split
  · exact h
  · exact takeScanMode_counters _ h

theorem restartBody_counters (h : CountersInRange u) : CountersInRange (restartBody u).1 := by
  unfold restartBody
  split
  · exact h
  · exact h.of_same rfl rfl

/-! ### Every command -/

/-- Every command leaves the counters in range. -/
theorem exec_counters (c : Instr) (h : CountersInRange s) : LeavesCounters (exec c s) := by
  cases c with
  | powerOnReset a => exact execPowerOnReset_counters a
  | resetRelease => exact execResetRelease_counters h
  | encoderPulse l => exact execEncoderPulse_counters h l
  | speedWindowEnd l => exact execSpeedWindowEnd_counters h l
  | commitPointReport r => exact leaves_next (h.keep fun k => arbitrate_keeps (reportCommitPoint_keeps k))
  | latestCommitPointReport r => exact leaves_next (h.keep fun k => arbitrate_keeps (reportLatest_keeps k))
  | matchDeadlineReport st => exact leaves_next (h.keep fun k => arbitrate_keeps (reportDeadline_keeps k))
  | pastePositionReport st => exact leaves_next (h.keep fun k => arbitrate_keeps (reportPaste_keeps k))
  | knifePositionReport st => exact leaves_next (h.keep fun k => arbitrate_keeps (reportKnife_keeps k))
  | staleLimitReached st arm => exact leaves_next (h.keep reportStale_keeps)
  | pulseEnd st o => exact execPulseEnd_counters h st o
  | revolutionMark st arm => exact execRevolutionMark_counters h st arm
  | tapeMark st => exact execTapeMark_counters h st
  | scanCall => exact execScanCall_counters h
  | quietTimer => exact execQuietTimer_counters h
  | scanEnd slots => exact execScanEnd_counters h slots
  | stopHoldTimerEnd st => exact execStopHoldTimerEnd_counters h st
  | accept st k arm => exact execAccept_counters h st k arm
  | refuse st k arm why => exact execRefuse_counters h st k arm why
  | replyTimeEnd => exact execReplyTimeEnd_counters h
  | grantLapse => exact execGrantLapse_counters h
  | readLimit st k => exact execReadLimit_counters h st k
  | indexTimeout st => exact execIndexTimeout_counters h st
  | verifyTimeout st => exact execVerifyTimeout_counters h st
  | cutWaitEnd st => exact execCutWaitEnd_counters h st
  | retractTimeout st => exact execRetractTimeout_counters h st
  | response st b => exact onGrant_keeps_counters h st fun u => takeResponse_keeps (.refl u)
  | indexDone st x y z => exact execIndexDone_counters h st x y z
  | verifyDone st arm => exact onGrant_keeps_counters h st fun u => takeVerifyDone_keeps (.refl u)
  | armHome st => exact execArmHome_counters h st
  | cutConfirmed st => exact execCutConfirmed_counters h st
  | armLoaded st arm => exact execArmLoaded_counters h st arm
  | armEmptied st arm => exact execArmEmptied_counters h st arm
  | queryArm st arm => exact execQueryArm_counters h st arm
  | consoleFrameDiscarded p => exact leaves_next h
  | answerFrameSeen a code p => exact leaves_next h
  | unknownCode a code p => exact answerCommand_counters h _ a code fun _ hu => hu
  | enterReel a p =>
    exact answerCommand_counters h _ a _ (withLength_counters _ _ fun _ => enterReelBody_counters p)
  | mountReel a p =>
    exact answerAndSend_counters h _ a _ (withLength_counters _ _ fun _ => mountReelBody_counters p)
  | prepared a p =>
    exact answerAndSend_counters h _ a _ (withLength_counters _ _ fun _ => preparedBody_counters p)
  | amendReel a p =>
    exact answerCommand_counters h _ a _ (withLength_counters _ _ fun _ => amendReelBody_counters p)
  | retireReel a p =>
    exact answerCommand_counters h _ a _ (withLength_counters _ _ fun _ => retireReelBody_counters p)
  | readReel a p =>
    exact answerCommand_counters h _ a _ (withLength_counters _ _ (lookup_counters (readReelBody_state p)))
  | readArm a p =>
    exact answerCommand_counters h _ a _ (withLength_counters _ _ (lookup_counters (readArmBody_state p)))
  | listReels a p =>
    exact answerCommand_counters h _ a _ (withLength_counters _ _ (lookup_counters (listReelsBody_state p)))
  | threadReel a p =>
    exact answerCommand_counters h _ a _ (withLength_counters _ _ fun _ => threadReelBody_counters p)
  | stopReel a p =>
    exact answerAndSend_counters h _ a _ (withLength_counters _ _ fun _ => stopReelBody_counters p)
  | orderSplice a p =>
    exact answerAndSend_counters h _ a _ (withLength_counters _ _ fun _ => orderSpliceBody_counters p)
  | confirm a p =>
    exact answerAndSend_counters h _ a _ (withLength_counters _ _ fun _ => confirmBody_counters p)
  | cancelOrder a p =>
    exact answerAndSend_counters h _ a _ (withLength_counters _ _ fun _ => cancelOrderBody_counters p)
  | releaseOrder a p =>
    exact answerCommand_counters h _ a _ (withLength_counters _ _ fun _ => releaseOrderBody_counters p)
  | readOrder a p =>
    exact answerCommand_counters h _ a _ (withLength_counters _ _ (lookup_counters (readOrderBody_state p)))
  | indexStand a p =>
    exact answerAndSend_counters h _ a _ (withLength_counters _ _ fun _ => indexStandBody_counters p)
  | clearStand a p =>
    exact answerAndSend_counters h _ a _ (withLength_counters _ _ fun _ => clearStandBody_counters p)
  | readStand a p =>
    exact answerCommand_counters h _ a _ (withLength_counters _ _ (lookup_counters (readStandBody_state p)))
  | readLine a p =>
    exact answerCommand_counters h _ a _ (withLength_counters _ _ (lookup_counters (readLineBody_state p)))
  | setParameter a p =>
    exact answerAndSend_counters h _ a _ (withLength_counters _ _ fun _ => setParameterBody_counters p)
  | readParameter a p =>
    exact answerCommand_counters h _ a _
      (withLength_counters _ _ (lookup_counters (readParameterBody_state p)))
  | parameterRun a p =>
    exact answerCommand_counters h _ a _ (withLength_counters _ _ fun _ => parameterRunBody_counters p)
  | data a p => exact answerAndSend_counters h _ a _ fun _ => dataBody_counters p
  | readChanges a p => exact answerCommand_counters h _ a _ (withLength_counters _ _ fun _ hu => hu)
  | ackChanges a p =>
    exact answerCommand_counters h _ a _ (withLength_counters _ _ fun _ hu => hu.of_same rfl rfl)
  | scanMode a p =>
    exact answerCommand_counters h _ a _ (withLength_counters _ _ fun _ => scanModeBody_counters p)
  | restart a p =>
    exact answerCommand_counters h _ a _ (withLength_counters _ _ fun _ => restartBody_counters)
  | answerSent => exact leaves_next (h.of_same rfl rfl)
  | unroutedStandMessage st => exact onGrant_keeps_counters h st .refl

/-- Every step leaves the counters in range. -/
theorem step_counters (h : CountersInRange s) : LeavesCounters (step s) := by
  unfold step
  split
  · exact exec_counters _ (h.of_same rfl rfl)
  · unfold idle
    split
    · exact exec_counters _ h
    · exact leaves_next (h.of_same rfl rfl)

end Counters

/-- Settles O15: every command keeps the ranges, and a step carries out one command or moves the clock. -/
theorem countersStayInRange : Obligations.CountersStayInRange :=
  fun _ t h e => step_counters h t e

end Sys2Proof.Machine
end

section
/-! The state that power-on reset leaves, table by table. -/

namespace Sys2Proof.Machine

open Sys2Proof

@[simp] theorem reset_reels (i : SlotId) : vget State.reset.reels i = none := by simp [State.reset]

@[simp] theorem reset_rows (r : RowId) : vget State.reset.rows r = none := by simp [State.reset]

@[simp] theorem reset_queues (st : StandId) : vget State.reset.bus.queues st = [] := by
  simp [State.reset, resetBus]

@[simp] theorem reset_bids (st : StandId) : vget State.reset.bus.bids st = false := by
  simp [State.reset, resetBus]

@[simp] theorem reset_stands (st : StandId) : vget State.reset.stands st = resetStand := by
  simp [State.reset]

@[simp] theorem reset_armContext (st : StandId) (arm : Arm) :
    armContext State.reset st arm = emptyArm := by simp [State.reset, armContext]

/-- Every stand parameter has its default (R171). -/
theorem reset_standParam (st : StandId) (i : Fin 14) :
    vget (vget State.reset.settings.stands st) i = (vget standSpecs i).default := by
  have h : vget State.reset.settings.stands st = standDefaults := by simp [State.reset, resetSettings]
  rw [h]
  revert i; decide

/-- Every line parameter has its default (R171). -/
theorem reset_lineParam (l : LineId) (i : Fin 4) :
    vget (vget State.reset.settings.lines l) i = (vget lineSpecs i).default := by
  have h : vget State.reset.settings.lines l = lineDefaults := by simp [State.reset, resetSettings]
  rw [h]
  revert i; decide

theorem reset_floors (l : LineId) : vget State.reset.settings.floors l = ⟨3000, 40000⟩ := by
  simp [State.reset, resetSettings, lineDefaults]

/-- Every default lies in its range (R171, R172). -/
theorem standSpecs_default_inRange (i : Fin 14) : inRange (vget standSpecs i) (vget standSpecs i).default := by
  unfold inRange; revert i; decide

theorem lineSpecs_default_inRange (i : Fin 4) : inRange (vget lineSpecs i) (vget lineSpecs i).default := by
  unfold inRange; revert i; decide

theorem reset_settingsInRange : SettingsInRange State.reset.settings := by
  refine ⟨fun st i => ?_, fun l i => ?_, fun l => ?_⟩
  · rw [reset_standParam]; exact standSpecs_default_inRange i
  · rw [reset_lineParam]; exact lineSpecs_default_inRange i
  · rw [reset_floors]; exact ⟨lineSpecs_default_inRange 1, lineSpecs_default_inRange 2⟩

/-- Settles O16: after reset the tables and the queues are empty and every setting is its default. -/
theorem resetMeetsLaws : Obligations.ResetMeetsLaws := by
  refine ⟨reset_settingsInRange, ?_, ?_, ?_, ?_, ?_, reset_counters.1, reset_counters.2⟩
  · intro i j x y hx; simp at hx
  · intro i j x y hx; simp at hx
  · intro i j x y hx; simp at hx
  · intro st; rw [reset_queues]; exact QueueOk.nil
  · intro _ st; simp

/-- Settles O17: the state after power-on reset is the reset state with the address of the pins and the queue
that waits. -/
theorem powerOnReset : Obligations.PowerOnReset := by
  intro address s
  refine ⟨_, rfl, rfl, fun l => ?_, reset_armContext, fun st => ?_, reset_reels, fun st => ?_,
    fun st => ?_, reset_rows, rfl, fun l => ?_, fun st => ?_, ⟨rfl, rfl, rfl, rfl, rfl⟩, fun st => ?_,
    reset_stands, reset_standParam, reset_lineParam, reset_floors, rfl, rfl⟩
  all_goals simp [State.reset, resetBus, windowMs]

end Sys2Proof.Machine
end

section
/-! Frames, the position reports of a pulse, and the ends of stale limits and pulses (R1, R2, R7, R12). -/

namespace Sys2Proof.Machine

open Sys2Proof

section Frames

variable {s t : State} {changed : List Block}

/-- What `Keeps` says of a state's parts, with what is known of the others, is a frame. -/
theorem Keeps.onlyIn (k : Keeps s t) (h : ∀ b, b ∉ changed →
      b ∈ [Block.arms, .outputs, .reels, .verifies, .trackers, .rows, .schedules, .sequencers, .bus, .stands,
        .port] → sameIn s t b) : OnlyIn changed s t := by
  intro b hb
  cases b with
  | now => exact k.now
  | resetHeld => exact k.resetHeld
  | lines => exact k.lines
  | allocStart => exact k.allocStart
  | settings => exact k.settings
  | pending => exact k.pending
  | _ => exact h _ hb (by decide)

/-- The effects of the orders, the splices and the trackers of a stand stay in these parts. -/
theorem Keeps.onlyIn_stands (k : Keeps s t) (h : t.stands = s.stands) :
    OnlyIn [.arms, .outputs, .reels, .verifies, .trackers, .rows, .schedules, .sequencers, .bus, .port]
      s t := by
  refine k.onlyIn fun b hb hm => ?_
  cases b
  case stands => exact h
  all_goals simp at hb hm

theorem OnlyIn.trans {u : State} (h : OnlyIn changed s t) (k : OnlyIn changed t u) : OnlyIn changed s u := by
  intro b hb
  have h1 := h b hb
  have h2 := k b hb
  cases b <;> exact Eq.trans h2 h1

theorem OnlyIn.mono {more : List Block} (h : OnlyIn changed s t) (hm : ∀ b ∈ changed, b ∈ more) :
    OnlyIn more s t := fun b hb => h b fun hc => hb (hm b hc)

end Frames

/-! ## Stale limits and pulse ends -/

theorem armContext_setArmContext_self (s : State) (st : StandId) (arm : Arm) (x : ArmContext) :
    armContext (setArmContext s st arm x) st arm = x := by simp [armContext, setArmContext]

theorem armContext_setArmContext_ne {s : State} {st st' : StandId} {arm arm' : Arm} {x : ArmContext}
    (h : (st', arm') ≠ (st, arm)) :
    armContext (setArmContext s st arm x) st' arm' = armContext s st' arm' := by
  simp only [armContext, setArmContext, setArms_arms, vget_vset]
  split
  · next e =>
    subst e
    exact armGet_armSet_ne _ _ _ _ fun e => h (e ▸ rfl)
  · rfl

/-- An arm context replaced touches the arm contexts alone. -/
theorem setArmContext_onlyIn (s : State) (st : StandId) (arm : Arm) (x : ArmContext) :
    OnlyIn [.arms] s (setArmContext s st arm x) := by
  intro b hb
  cases b
  case arms => simp at hb
  all_goals rfl

theorem atOrAfter_iff (a b : Pos) : atOrAfter a b = true ↔ (a - b).toNat < 2147483648 := decide_eq_true_iff

theorem atOrAfter_eq_false_iff (a b : Pos) : atOrAfter a b = false ↔ 2147483648 ≤ (a - b).toNat :=
  decide_eq_false_iff_not.trans Nat.not_lt

/-- Settles O23: a stale limit that is due empties its context, and a pulse end clears its output. -/
theorem staleLimitAndPulseEnd : Obligations.StaleLimitAndPulseEnd := by
  refine ⟨fun st arm s p hp hd => ⟨setArmContext s st arm emptyArm, ?_,
    armContext_setArmContext_self .., fun _ _ => armContext_setArmContext_ne,
    setArmContext_onlyIn s st arm emptyArm⟩, fun st s e he => ?_, fun st s e he => ?_⟩
  · have due : staleDue s st arm = true := by simpa [staleDue, hp, atOrAfter_iff] using hd
    simp [exec, execStaleLimitReached, reportStale, due]
  · simp [exec, execPulseEnd, pulseEndOf, he, setOutputs, reachTime, setNow]
  · simp [exec, execPulseEnd, pulseEndOf, he, setOutputs, reachTime, setNow]

/-! ## The reports of a pulse -/

/-- What the report of a position watch does, without the arbiter's choice (R2). -/
def reportOf (s : State) : Instr → State
  | .commitPointReport r => reportCommitPoint r s
  | .latestCommitPointReport r => reportLatest r s
  | .matchDeadlineReport st => reportDeadline st s
  | .pastePositionReport st => reportPaste st s
  | .knifePositionReport st => reportKnife st s
  | .staleLimitReached st arm => reportStale st arm s
  | _ => s

/-- The reports of a line's watches, in the order in which a pulse makes them. -/
def reportsOf (l : LineId) (s : State) : List Instr :=
  (rowsOf s l).map .commitPointReport ++ (rowsOf s l).map .latestCommitPointReport ++
    (standsOf s l).map .matchDeadlineReport ++ (standsOf s l).map .pastePositionReport ++
    (standsOf s l).map .knifePositionReport ++
    (armsOf (standsOf s l)).map (fun x => .staleLimitReached x.1 x.2)

theorem reportAll_eq_foldl {α : Type} (later : List Instr) (c : α → Instr) (f : α → State → State)
    (hf : ∀ x s, f x s = reportOf s (c x)) (xs : List α) (s : State) :
    reportAll later c f xs s = ((xs.map c).filter (!later.contains ·)).foldl reportOf s := by
  rw [List.filter_map, List.foldl_map]
  exact List.foldl_ext _ _ _ fun t x _ => hf x t

/-- The reports of a pulse are made one after another. -/
theorem reportLine_eq_foldl (l : LineId) (later : List Instr) (s : State) :
    reportLine l later s = ((reportsOf l s).filter (!later.contains ·)).foldl reportOf s := by
  simp only [reportLine, reportsOf, List.filter_append, List.foldl_append]
  rw [reportAll_eq_foldl later .commitPointReport reportCommitPoint fun _ _ => rfl,
    reportAll_eq_foldl later .latestCommitPointReport reportLatest fun _ _ => rfl,
    reportAll_eq_foldl later .matchDeadlineReport reportDeadline fun _ _ => rfl,
    reportAll_eq_foldl later .pastePositionReport reportPaste fun _ _ => rfl,
    reportAll_eq_foldl later .knifePositionReport reportKnife fun _ _ => rfl,
    reportAll_eq_foldl later (fun x : StandId × Arm => .staleLimitReached x.1 x.2)
      (fun x => reportStale x.1 x.2) fun _ _ => rfl]

/-- A report of a watch that is not due changes nothing (R2). -/
theorem reportOf_not_due {s : State} {c : Instr} (h : watchDue s c = false) : reportOf s c = s := by
  cases c <;> simp_all [watchDue, reportOf, reportCommitPoint, reportLatest, reportDeadline, reportPaste,
    reportKnife, reportStale]

theorem reportOf_keeps (s : State) (c : Instr) : Keeps s (reportOf s c) := by
  have h := Keeps.refl s
  cases c with
  | commitPointReport r => exact reportCommitPoint_keeps h
  | latestCommitPointReport r => exact reportLatest_keeps h
  | matchDeadlineReport st => exact reportDeadline_keeps h
  | pastePositionReport st => exact reportPaste_keeps h
  | knifePositionReport st => exact reportKnife_keeps h
  | staleLimitReached st arm => exact reportStale_keeps h
  | _ => exact h

/-- A watch of the line reports among the reports of its pulse. -/
theorem mem_reportsOf {l : LineId} {s : State} {c : Instr} (h : watchLine s c = some l) :
    c ∈ reportsOf l s := by
  have row : ∀ r : RowId, (vget s.rows r).map (fun row => lineOf s row.stand) = some l → r ∈ rowsOf s l := by
    intro r hr
    obtain ⟨row, hrow, hl⟩ := Option.map_eq_some_iff.1 hr
    simp [rowsOf, hrow, hl]
  have stand : ∀ st : StandId, some (lineOf s st) = some l → st ∈ standsOf s l := fun st hst => by
    simpa [standsOf] using hst
  have arm : ∀ y : Arm, y ∈ allArms := fun y => by cases y <;> simp [allArms]
  cases c with
  | commitPointReport r => simpa [reportsOf] using row r h
  | latestCommitPointReport r => simpa [reportsOf] using row r h
  | matchDeadlineReport st => simpa [reportsOf] using stand st h
  | pastePositionReport st => simpa [reportsOf] using stand st h
  | knifePositionReport st => simpa [reportsOf] using stand st h
  | staleLimitReached st y => simpa [reportsOf, armsOf] using ⟨stand st h, arm y⟩
  | _ => simp [watchLine] at h

/-- A report of a line's pulse is that of a watch of the line. -/
theorem watchLine_of_mem_reportsOf {l : LineId} {s : State} {c : Instr} (h : c ∈ reportsOf l s) :
    watchLine s c = some l := by
  have row : ∀ r ∈ rowsOf s l, (vget s.rows r).map (fun row => lineOf s row.stand) = some l := by
    intro r hr
    cases e : vget s.rows r <;> simp_all [rowsOf]
  have stand : ∀ st ∈ standsOf s l, lineOf s st = l := fun st hst => by
    simpa [standsOf] using hst
  simp only [reportsOf, List.mem_append, List.mem_map, or_assoc] at h
  rcases h with ⟨r, hr, rfl⟩ | ⟨r, hr, rfl⟩ | ⟨st, hst, rfl⟩ | ⟨st, hst, rfl⟩ | ⟨st, hst, rfl⟩ | ⟨x, hx, rfl⟩
  · exact row r hr
  · exact row r hr
  · exact congrArg some (stand st hst)
  · exact congrArg some (stand st hst)
  · exact congrArg some (stand st hst)
  · obtain ⟨st, hst, y, -, rfl⟩ : ∃ st ∈ standsOf s l, ∃ y ∈ allArms, (st, y) = x := by
      simpa [armsOf] using hx
    exact congrArg some (stand st hst)

theorem Keeps.lineOf_eq {s t : State} (k : Keeps s t) (st : StandId) : lineOf t st = lineOf s st := by
  simp only [lineOf, standParam, k.settings]

/-- A watch stays on its line under everything that keeps its row and the settings. -/
theorem Keeps.watchLine_eq {s t : State} (k : Keeps s t) (c : Instr) : watchLine t c = watchLine s c := by
  have row : ∀ r : RowId, (vget t.rows r).map (fun row => lineOf t row.stand) =
      (vget s.rows r).map fun row => lineOf s row.stand := by
    intro r
    have h := k.rows r
    cases e : vget s.rows r with
    | none => simp_all [RowKept]
    | some x =>
      cases f : vget t.rows r with
      | none => simp [RowKept, e, f] at h
      | some y =>
        rw [e, f] at h
        obtain ⟨-, hst, -⟩ := h
        simp [k.lineOf_eq, hst]
  cases c with
  | commitPointReport r | latestCommitPointReport r => exact row r
  | _ => simp only [watchLine, k.lineOf_eq]

/-- A fold over a list in which one element alone acts, and nothing acts after it. -/
theorem foldl_eq_single {α β : Type} (f : β → α → β) (xs : List α) (b : β) (c : α)
    (before : ∀ x ∈ xs, x ≠ c → f b x = b) (after : ∀ x ∈ xs, f (f b c) x = f b c) (hc : c ∈ xs) :
    xs.foldl f b = f b c := by
  have rest : ∀ ys : List α, (∀ x ∈ ys, f (f b c) x = f b c) → ys.foldl f (f b c) = f b c := by
    intro ys h
    induction ys with
    | nil => rfl
    | cons y ys ih =>
      rw [List.foldl_cons, h y (List.mem_cons_self ..)]
      exact ih fun x hx => h x (List.mem_cons_of_mem _ hx)
  induction xs with
  | nil => exact absurd hc (by simp)
  | cons x xs ih =>
    rw [List.foldl_cons]
    by_cases e : x = c
    · subst e
      exact rest xs fun y hy => after y (List.mem_cons_of_mem _ hy)
    · rw [before x (List.mem_cons_self ..) e]
      exact ih (fun y hy => before y (List.mem_cons_of_mem _ hy))
        (fun y hy => after y (List.mem_cons_of_mem _ hy)) ((List.mem_cons.1 hc).resolve_left (Ne.symm e))

/-- At a pulse that makes one watch of the line due, whose report leaves none due, that watch alone reports. -/
theorem reportLine_eq_single {l : LineId} {later : List Instr} {s : State} {c : Instr} (hc : c ∉ later)
    (hl : watchLine s c = some l)
    (others : ∀ d, d ≠ c → d ∉ later → watchLine s d = some l → watchDue s d = false)
    (after : NoneDue l later (reportOf s c)) : reportLine l later s = reportOf s c := by
  rw [reportLine_eq_foldl]
  refine foldl_eq_single reportOf _ s c (fun d hd hne => ?_) (fun d hd => ?_) ?_
  · obtain ⟨hm, hn⟩ := List.mem_filter.1 hd
    exact reportOf_not_due (others d hne (by simpa using hn) (watchLine_of_mem_reportsOf hm))
  · obtain ⟨hm, hn⟩ := List.mem_filter.1 hd
    refine reportOf_not_due (after d (by simpa using hn) ?_)
    rw [(reportOf_keeps s c).watchLine_eq]
    exact watchLine_of_mem_reportsOf hm
  · exact List.mem_filter.2 ⟨mem_reportsOf hl, by simpa using hc⟩

/-- The arbiter's choice makes no watch due and none undue. -/
theorem noneDue_arbitrate {l : LineId} {later : List Instr} {s : State} (h : NoneDue l later (arbitrate s)) :
    NoneDue l later s := by
  intro c hc hl
  rw [arbitrate_bus] at h
  have := h c hc (by cases c <;> exact hl)
  cases c <;> exact this

/-- A report command makes its watch's report; the arbiter then chooses, and has no choice after a stale limit
that met nothing waiting. -/
theorem exec_report {s : State} {c : Instr} (hn : NothingWaits s) (hd : watchDue s c = true) :
    exec c s = .next (arbitrate (reportOf s c)) := by
  cases c with
  | staleLimitReached st arm =>
    have : NothingWaits (reportStale st arm s) := by unfold reportStale; split <;> exact hn
    exact congrArg Host.Outcome.next (arbitrate_eq_self this).symm
  | commitPointReport | latestCommitPointReport | matchDeadlineReport | pastePositionReport
  | knifePositionReport => rfl
  | _ => simp [watchDue] at hd

theorem setLine_pulse (s : State) (l : LineId) : setLine s l (pulse (vget s.lines l)) =
    { s with lines := vset s.lines l { vget s.lines l with
      position := (vget s.lines l).position + 1, windowCount := (vget s.lines l).windowCount + 1 } } := rfl

/-- Settles O19: a pulse is the counter's step and then the reports of the watches it makes due. -/
theorem encoderPulse : Obligations.EncoderPulse := by
  intro l s
  dsimp only
  rw [← setLine_pulse]
  generalize hp : setLine s l (pulse (vget s.lines l)) = u
  have hexec : exec (.encoderPulse l) s = .next (arbitrate (reportLine l (together l s) u)) := by
    rw [← hp]; rfl
  have bus : u.bus = s.bus := by rw [← hp]; rfl
  have waits : NothingWaits s → NothingWaits u := fun h => by rw [NothingWaits, bus]; exact h
  refine ⟨⟨_, hexec, ?_, ?_⟩, fun hn hd => ?_, fun c hc hn hl hd others after => ?_⟩
  · rw [(arbitrate_keeps (reportLine_keeps (.refl u))).lines, ← hp]; rfl
  · have start : OnlyIn [.lines] s u := by
      intro b hb
      subst hp
      cases b
      case lines => simp at hb
      all_goals rfl
    have rest := (arbitrate_keeps (reportLine_keeps (l := l) (later := together l s) (.refl u))).onlyIn_stands
      (by rw [arbitrate_stands, reportLine_stands])
    exact (start.mono (by simp)).trans (rest.mono (by simp))
  · rw [hexec, reportLine_eq_self hd, arbitrate_eq_self (waits hn)]
  · have hc' := exec_report (waits hn) hd
    rw [hexec, hc', reportLine_eq_single hc hl others (noneDue_arbitrate (after _ hc'))]

end Sys2Proof.Machine
end

section
/-! What an evaluation of a line schedule keeps (R95 to R104): it changes waiting rows alone, so it starts no
verification, leaves a record without an order tag, and below the splice floor leaves the sequencers. -/

namespace Sys2Proof.Machine

open Sys2Proof

/-- A property that everything an evaluation is made of keeps: the writes of a schedule, the flags, a row that
waits written again for its stand, a waiting row's close and a commit. -/
structure EvalClosed (P : State → Prop) : Prop where
  schedule : ∀ u l x, P u → P (setSchedule u l x)
  flag : ∀ u e n, P u → P (raiseBit e n u)
  row : ∀ u r x y, vget u.rows r = some x → x.state.waiting = true → y.state.waiting = true →
    y.stand = x.stand → P u → P (setRow u r (some y))
  close : ∀ u r x o why d b, vget u.rows r = some x → x.state.waiting = true → P u →
    P (closeRow r o why d b u).1
  commit : ∀ u r x p n b, vget u.rows r = some x → x.state.waiting = true →
    belowSpliceFloor u (lineOf u x.stand) = false → P u → P (commitRow r x p n b u).1

namespace EvalClosed

variable {P : State → Prop} {s : State}

theorem commitTest (hP : EvalClosed P) (r : RowId) (h : P s) : P (commitTest r s).1 := by
  unfold Machine.commitTest
  split
  · exact h
  · next x e =>
    split
    · next hw _ _ =>
      dsimp only
      split
      · split
        · exact hP.close _ _ x _ _ _ _ e hw h
        · have held : P (setRow s r (some { x with state := .held, past := false })) :=
            hP.row _ _ x _ e hw rfl rfl h
          dsimp only
          split
          · exact held
          · exact hP.flag _ _ _ held
      · split
        · split
          · exact hP.close _ _ x _ _ _ _ e hw h
          · exact hP.row _ _ x _ e hw rfl rfl h
        · next hf => exact hP.commit _ _ x _ _ _ e hw (by simpa using hf) h
    · exact h

theorem latestReport (hP : EvalClosed P) (r : RowId) (h : P s) : P (latestReport r s).1 := by
  unfold Machine.latestReport
  split
  · exact h
  · next x e =>
    split
    · next hx => exact hP.close _ _ x _ _ _ _ e (by rw [hx]; rfl) h
    · next hx _ => exact hP.close _ _ x _ _ _ _ e (by rw [hx]; rfl) h
    · exact hP.commitTest r h
    · exact h

theorem placedRow_waiting (pos : Pos) (e : Entry) (x : OrderRow) (h : x.state.waiting = true) :
    (placedRow pos e x).state.waiting = true := by
  unfold placedRow
  dsimp only
  split
  · exact h
  · rfl

theorem handOff (hP : EvalClosed P) (l : LineId) (acc : State × Nat) (e : Entry) (h : P acc.1) :
    P (handOff l acc e).1 := by
  obtain ⟨u, n⟩ := acc
  unfold Machine.handOff
  dsimp only at h ⊢
  split
  · exact h
  · next x hx =>
    split
    · exact h
    · next hw =>
      have hw : x.state.waiting = true := by simpa using hw
      have placed : P (setRow u e.row (some (placedRow (position u l) e x))) :=
        hP.row _ _ x _ hx hw (placedRow_waiting _ _ _ hw) (placedRow_identity _ _ _).2.1 h
      have flagged : P (if (x.state == .held && (placedRow (position u l) e x).state == .armed) = true
          then raiseRow e.row x.stand (setRow u e.row (some (placedRow (position u l) e x)))
          else setRow u e.row (some (placedRow (position u l) e x))) := by
        split
        · exact hP.flag _ _ _ placed
        · exact placed
      split
      · exact hP.commitTest _ flagged
      · split
        · exact hP.latestReport _ flagged
        · exact flagged

theorem evalOnce (hP : EvalClosed P) (l : LineId) (h : P s) : P (evalOnce l s).1 := by
  have offs : ∀ (es : List Entry) (acc : State × Nat), P acc.1 → P (es.foldl (Machine.handOff l) acc).1 := by
    intro es
    induction es with
    | nil => exact fun _ h => h
    | cons e es ih => exact fun acc h => ih _ (hP.handOff l acc e h)
  unfold Machine.evalOnce
  refine offs _ _ ?_
  dsimp only
  split
  · exact hP.flag _ _ _ (hP.schedule _ _ _ h)
  · exact hP.schedule _ _ _ h

/-- What an evaluation's parts keep, the evaluations that are due keep. -/
theorem settle (hP : EvalClosed P) (l : LineId) (n : Nat) (h : P s) : P (settle l n s) := by
  unfold Machine.settle
  generalize n + placedCount s l = fuel
  induction fuel generalizing n s with
  | zero => exact h
  | succ fuel ih =>
    cases n with
    | zero => exact h
    | succ n => exact ih _ (hP.evalOnce l h)

theorem handPositions (hP : EvalClosed P) (st : StandId) (h : P s) : P (handPositions st s) := by
  unfold Machine.handPositions
  dsimp only
  split
  · exact hP.settle _ _ h
  · exact h

theorem testOrder (hP : EvalClosed P) (r : RowId) (h : P s) : P (testOrder r s) :=
  hP.settle _ _ (hP.commitTest r h)

end EvalClosed

/-! ## The close of a row (R81) -/

/-- A row as its close leaves it. -/
def closedRow (row : OrderRow) (o : OrderState) (why : Option OrderReason) (d : Option DoneResults) :
    OrderRow := { row with state := o, reason := why, results := d, place := none, past := false }

/-- A close up to the removal of the row's entry: the row, the abort, the sequencer and the tags. -/
def releaseOrderOf (r : RowId) (row : OrderRow) (o : OrderState) (why : Option OrderReason)
    (d : Option DoneResults) (b : Bool) (s : State) : State :=
  let s1 := setRow s r (some (closedRow row o why d))
  let s2 := if abortable s row then abortReturn row why (coastUnlessLost row b s1) else s1
  untagOrder row (if row.state.waiting then s2 else setSequencer s2 row.stand none)

section Close

variable {s : State} {r : RowId} {row : OrderRow} (o : OrderState) (why : Option OrderReason)
  (d : Option DoneResults) (b : Bool)

@[simp] theorem releaseOrderOf_rows : (releaseOrderOf r row o why d b s).rows =
    vset s.rows r (some (closedRow row o why d)) := by
  unfold releaseOrderOf; dsimp only; (repeat' split) <;> simp

@[simp] theorem releaseOrderOf_schedules : (releaseOrderOf r row o why d b s).schedules = s.schedules := by
  unfold releaseOrderOf; dsimp only; (repeat' split) <;> simp

@[simp] theorem releaseOrderOf_sequencers : (releaseOrderOf r row o why d b s).sequencers =
    if row.state.waiting then s.sequencers else vset s.sequencers row.stand none := by
  unfold releaseOrderOf; dsimp only; (repeat' split) <;> simp_all

/-- The close of an open row: the order released, its entry removed, and its flag raised (R81). -/
theorem closeRow_open (h : vget s.rows r = some row) (ho : row.state.isOpen = true) :
    closeRow r o why d b s =
      if hasEntry s (lineOf s row.stand) r then
        (raiseRow r row.stand (removeEntry (lineOf s row.stand) r (releaseOrderOf r row o why d b s)), 1)
      else (raiseRow r row.stand (releaseOrderOf r row o why d b s), 0) := by
  have entry : hasEntry (releaseOrderOf r row o why d b s) (lineOf s row.stand) r =
      hasEntry s (lineOf s row.stand) r := by simp [hasEntry]
  rw [← entry]
  simp only [closeRow, h, ho]
  rfl

/-- A row that has closed does not close again (R82). -/
theorem closeRow_not_open (h : vget s.rows r = some row) (ho : row.state.isOpen = false) :
    closeRow r o why d b s = (s, 0) := by simp [closeRow, h, ho]

theorem closeRow_none (h : vget s.rows r = none) : closeRow r o why d b s = (s, 0) := by
  simp [closeRow, h]

theorem closeRow_rows (h : vget s.rows r = some row) (ho : row.state.isOpen = true) :
    (closeRow r o why d b s).1.rows = vset s.rows r (some (closedRow row o why d)) := by
  rw [closeRow_open o why d b h ho]; split <;> simp

theorem closeRow_reels (h : vget s.rows r = some row) (ho : row.state.isOpen = true) :
    (closeRow r o why d b s).1.reels = (releaseOrderOf r row o why d b s).reels := by
  rw [closeRow_open o why d b h ho]; split <;> simp

theorem closeRow_verifies (h : vget s.rows r = some row) (ho : row.state.isOpen = true) :
    (closeRow r o why d b s).1.verifies = (releaseOrderOf r row o why d b s).verifies := by
  rw [closeRow_open o why d b h ho]; split <;> simp

theorem closeRow_sequencers (h : vget s.rows r = some row) (ho : row.state.isOpen = true) :
    (closeRow r o why d b s).1.sequencers =
      if row.state.waiting then s.sequencers else vset s.sequencers row.stand none := by
  rw [closeRow_open o why d b h ho]; split <;> simp

/-- A waiting row closes before its commit, so nothing is aborted (R81 step 1). -/
theorem abortable_of_waiting (h : row.state.waiting = true) : abortable s row = false := by
  unfold abortable
  split <;> simp_all [OrderState.waiting]

theorem closeRow_waiting_verifies (h : vget s.rows r = some row) (hw : row.state.waiting = true) :
    (closeRow r o why d b s).1.verifies = s.verifies := by
  rw [closeRow_verifies o why d b h (waiting_isOpen hw)]
  simp [releaseOrderOf, abortable_of_waiting hw, hw]

theorem closeRow_waiting_sequencers (h : vget s.rows r = some row) (hw : row.state.waiting = true) :
    (closeRow r o why d b s).1.sequencers = s.sequencers := by
  rw [closeRow_sequencers o why d b h (waiting_isOpen hw), if_pos hw]

end Close

/-! ## Verifications -/

theorem verifies_evalClosed (v : Vector (Option VerifyRun) 8) :
    EvalClosed fun u => u.verifies = v where
  schedule _ _ _ h := h
  flag u e n h := (raiseBit_verifies e n u).trans h
  row _ _ _ _ _ _ _ _ h := h
  close _ _ _ o why d b e hw h := (closeRow_waiting_verifies o why d b e hw).trans h
  commit _ _ _ _ _ _ _ _ _ h := by simpa [commitRow] using h

@[simp] theorem settle_verifies (l : LineId) (n : Nat) (s : State) :
    (settle l n s).verifies = s.verifies := (verifies_evalClosed _).settle l n rfl

@[simp] theorem handPositions_verifies (st : StandId) (s : State) :
    (handPositions st s).verifies = s.verifies := (verifies_evalClosed _).handPositions st rfl

/-! ## Records without an order tag -/

theorem orderReel_tag {s : State} {row : OrderRow} {n : Nat} {i : SlotId} (h : orderReel s row n = some i) :
    ∃ r, vget s.reels i = some r ∧ r.tag = some row.tag := by
  obtain ⟨-, ht⟩ := Option.filter_eq_some_iff.1 h
  cases e : vget s.reels i with
  | none => simp [e] at ht
  | some r => exact ⟨r, rfl, by simpa [e] using ht⟩

/-- A change made to the record of one of an order's reels leaves a record without tag. -/
theorem setReel_untagged {s : State} {row : OrderRow} {n : Nat} {i j : SlotId} {r : ReelRecord}
    {x : Option ReelRecord} (hi : orderReel s row n = some i) (h : vget s.reels j = some r)
    (ht : r.tag = none) : vget (setReel s i x).reels j = some r := by
  obtain ⟨y, hy, hty⟩ := orderReel_tag hi
  have : j ≠ i := by
    rintro rfl
    rw [h] at hy
    cases hy
    simp [ht] at hty
  simpa [vget_vset_ne, this] using h

theorem untagReel_untagged {s : State} {row : OrderRow} {n : Nat} {j : SlotId} {r : ReelRecord}
    (h : vget s.reels j = some r) (ht : r.tag = none) : vget (untagReel row n s).reels j = some r := by
  unfold untagReel
  split
  · next i hi => exact setReel_untagged hi h ht
  · exact h

theorem untagOrder_untagged {s : State} {row : OrderRow} {j : SlotId} {r : ReelRecord}
    (h : vget s.reels j = some r) (ht : r.tag = none) : vget (untagOrder row s).reels j = some r :=
  untagReel_untagged (untagReel_untagged h ht) ht

theorem commitReel_untagged {s : State} {row : OrderRow} {j : SlotId} {r : ReelRecord}
    (h : vget s.reels j = some r) (ht : r.tag = none) : vget (commitReel row s).reels j = some r := by
  unfold commitReel
  split
  · next i hi => exact setReel_untagged hi h ht
  · exact h

theorem abortReturn_untagged {s : State} {row : OrderRow} {why : Option OrderReason} {j : SlotId}
    {r : ReelRecord} (h : vget s.reels j = some r) (ht : r.tag = none) :
    vget (abortReturn row why s).reels j = some r := by
  unfold abortReturn
  split
  · next i hi =>
    split
    · split
      · rw [startIfDue_reels]; exact setReel_untagged hi h ht
      · exact h
    · exact h
  · exact h

theorem releaseOrderOf_untagged {s : State} {k : RowId} {row : OrderRow} {o : OrderState}
    {why : Option OrderReason} {d : Option DoneResults} {b : Bool} {j : SlotId} {r : ReelRecord}
    (h : vget s.reels j = some r) (ht : r.tag = none) :
    vget (releaseOrderOf k row o why d b s).reels j = some r := by
  have abort : vget (if abortable s row = true then
      abortReturn row why (coastUnlessLost row b (setRow s k (some (closedRow row o why d))))
      else setRow s k (some (closedRow row o why d))).reels j = some r := by
    split
    · exact abortReturn_untagged (by simpa using h) ht
    · exact h
  unfold releaseOrderOf
  refine untagOrder_untagged ?_ ht
  split
  · exact abort
  · exact abort

theorem closeRow_untagged {s : State} {k : RowId} {o : OrderState} {why : Option OrderReason}
    {d : Option DoneResults} {b : Bool} {j : SlotId} {r : ReelRecord}
    (h : vget s.reels j = some r) (ht : r.tag = none) :
    vget (closeRow k o why d b s).1.reels j = some r := by
  cases e : vget s.rows k with
  | none => rw [closeRow_none _ _ _ _ e]; exact h
  | some row =>
    cases ho : row.state.isOpen with
    | false => rw [closeRow_not_open _ _ _ _ e ho]; exact h
    | true => rw [closeRow_reels _ _ _ _ e ho]; exact releaseOrderOf_untagged h ht

/-- An evaluation leaves a record that carries no order's tag. -/
theorem untagged_evalClosed {j : SlotId} {r : ReelRecord} (ht : r.tag = none) :
    EvalClosed fun u => vget u.reels j = some r where
  schedule _ _ _ h := h
  flag u e n h := by rw [raiseBit_reels]; exact h
  row _ _ _ _ _ _ _ _ h := h
  close _ _ _ _ _ _ _ _ _ h := closeRow_untagged h ht
  commit _ _ _ _ _ _ _ _ _ h := by
    simp only [commitRow, raiseRow_reels, queueRequest_reels, setSequencer_reels, setRow_reels,
      freezeEntry_reels]
    exact commitReel_untagged h ht

/-! ## A line with no entry that waits for placement -/

/-- With every entry FROZEN an evaluation changes nothing: it places none and hands off none (R96). -/
theorem evalOnce_of_frozen {s : State} {l : LineId} (h : ∀ e ∈ vget s.schedules l, e.frozen = true) :
    evalOnce l s = (s, 0) := by
  have kept : (vget s.schedules l).filter (·.frozen) = vget s.schedules l :=
    List.filter_eq_self.2 h
  have fresh : ((vget s.schedules l).map (refreshEntry s)).filter (fun e => !e.frozen) = [] := by
    refine List.filter_eq_nil_iff.2 fun e he => ?_
    obtain ⟨x, hx, rfl⟩ := List.mem_map.1 he
    simp [refreshEntry, h x hx]
  have placed : placedEntries l s = [] := by
    simp [placedEntries, fresh, takingOrder, sortBy, placeAll]
  have same : setSchedule s l (vget s.schedules l) = s := by simp [setSchedule]
  simp [evalOnce, placed, kept, newlyShort, same]

theorem settle_of_frozen {s : State} {l : LineId} (h : ∀ e ∈ vget s.schedules l, e.frozen = true) (n : Nat) :
    settle l n s = s := by
  unfold settle
  generalize n + placedCount s l = fuel
  induction fuel generalizing n with
  | zero => rfl
  | succ fuel ih =>
    cases n with
    | zero => rfl
    | succ n => simp only [evalRounds, evalOnce_of_frozen h]; exact ih n

theorem evaluate_of_frozen {s : State} {l : LineId} (h : ∀ e ∈ vget s.schedules l, e.frozen = true) :
    evaluate l s = s := settle_of_frozen h 1

@[simp] theorem settle_zero (l : LineId) (s : State) : settle l 0 s = s := by
  unfold settle; cases 0 + placedCount s l <;> rfl

end Sys2Proof.Machine
end

section
/-! Console commands that reach the port: the lookups (R39 to R41, R88, R105, R149, R170, R172), and THREAD REEL
and STOP REEL (R29, R33, R84). -/

namespace Sys2Proof.Machine

open Sys2Proof

section Port

variable {s : State} {ad : Byte}

theorem Addressed.own (h : Addressed s ad) : ownAddress s ad = true := by
  obtain ⟨-, -, hpins, had⟩ := h
  simpa [ownAddress, had] using hpins

/-- An addressed command frame but DATA ends the parameter run, is carried out and is answered (R176, R179). -/
theorem takeCommand_addressed (h : Addressed s ad) (code : Byte) (body : State → State × Reply) :
    takeCommand .plain ad code body s =
      setAnswer (some (answerOf code (body (endParamRun s)).2)) (body (endParamRun s)).1 := by
  have own := h.own
  obtain ⟨hr, ha, -, -⟩ := h
  simp [takeCommand, hr, own, ha, runAfter]

/-- A frame whose payload has the length of the command table reaches the body (R179). -/
theorem withLength_eq {n : Nat} {p : List Byte} (hp : p.length = n) (body : State → State × Reply) :
    withLength n p body = body := by
  funext u; simp [withLength, hp]

/-- An addressed command that queues nothing and changes nothing: its answer alone is left at the port. -/
theorem answerCommand_lookup (h : Addressed s ad) {code : Byte} {n : Nat} {p : List Byte} (hp : p.length = n)
    {body : State → State × Reply} {x : Status} {items : List Byte}
    (hb : body (endParamRun s) = (endParamRun s, ⟨x, items⟩)) :
    answerCommand .plain ad code (withLength n p body) s =
      .next { s with port := answering s.port code x items } := by
  rw [answerCommand, withLength_eq hp, takeCommand_addressed h, hb]; rfl

end Port

section Lookups

variable {s : State} {p : List Byte}

/-! ### What a lookup answers -/

theorem answerSlot_eq {i : SlotId} {r : ReelRecord} (h : vget s.reels i = some r) :
    answerSlot i s = (s, ⟨.ok, recordItems s i r⟩) := by
  unfold answerSlot; rw [h]; rfl

theorem standOf_val (st : StandId) : standOf (st.val + 1) = some st := by
  revert st; decide

theorem lineOfNumber_val (l : LineId) : lineOfNumber (l.val + 1) = some l := by
  revert l; decide

theorem armOfCode_armCode (arm : Arm) : armOfCode (armCode arm) = some arm := by
  cases arm <;> rfl

theorem targetOf_stand (st : StandId) : targetOf 0 (st.val + 1) = some (.stand st) := by
  revert st; decide

theorem targetOf_line (l : LineId) : targetOf 1 (l.val + 1) = some (.line l) := by
  revert l; decide

theorem targetOf_none {k : Nat} (hk : 1 < k) (n : Nat) : targetOf k n = none := by
  unfold targetOf
  split
  · omega
  · omega
  · rfl

theorem readReelBody_none (h : findReel s (item p 0 4) = none) :
    readReelBody p s = (s, ⟨.noSuchReel, []⟩) := by unfold readReelBody; rw [h]; rfl

theorem readReelBody_some {i : SlotId} {r : ReelRecord} (h : findReel s (item p 0 4) = some i)
    (hr : vget s.reels i = some r) : readReelBody p s = (s, ⟨.ok, recordItems s i r⟩) := by
  unfold readReelBody; rw [h]; exact answerSlot_eq hr

theorem readArmBody_none {st : StandId} {arm : Arm} (hst : item p 0 1 = st.val + 1)
    (harm : item p 1 1 = armCode arm) (h : boundSlot s st arm = none) :
    readArmBody p s = (s, ⟨.noSuchReel, []⟩) := by
  simp only [readArmBody, hst, harm, standOf_val, armOfCode_armCode, h]; rfl

theorem readArmBody_some {st : StandId} {arm : Arm} (hst : item p 0 1 = st.val + 1)
    (harm : item p 1 1 = armCode arm) {i : SlotId} {r : ReelRecord} (h : boundSlot s st arm = some i)
    (hr : vget s.reels i = some r) : readArmBody p s = (s, ⟨.ok, recordItems s i r⟩) := by
  simp only [readArmBody, hst, harm, standOf_val, armOfCode_armCode, h]; exact answerSlot_eq hr

theorem listReelsBody_ok (h : item p 0 1 ≤ 64) :
    listReelsBody p s = (s, ⟨.ok, listItems s (item p 0 1)⟩) := by
  rw [listReelsBody, if_neg (by omega)]; rfl

theorem listReelsBody_badValue (h : 64 < item p 0 1) : listReelsBody p s = (s, ⟨.badValue, []⟩) := by
  rw [listReelsBody, if_pos h]; rfl

/-- The next start slot stands after the twelfth record listed (R41). -/
theorem nextStart_eq (s : State) (start : Nat) : nextStart s start =
    if (listedSlots s start).length < 12 then 64
    else (((listedSlots s start).take 12).getLastD 0).val + 1 := by
  unfold nextStart
  generalize listedSlots s start = xs
  split
  · next i hi =>
    obtain ⟨hlt, rfl⟩ := List.getElem?_eq_some_iff.1 hi
    have : ¬ xs.length < 12 := by omega
    have hl : (xs.take 12).getLast? = some xs[11] := by
      rw [List.getLast?_eq_getElem?, List.length_take, Nat.min_eq_left (by omega),
        List.getElem?_take_of_lt (by omega)]
      exact hi
    simp [this, List.getLastD_eq_getLast?, hl]
  · next hi =>
    rw [if_pos (by have := List.getElem?_eq_none_iff.1 hi; omega)]

/-- The listing of LIST REELS, with the next start slot written out (R41). -/
theorem listItems_eq (s : State) (start : Nat) : listItems s start =
    let found := listedSlots s start
    let listed := found.take 12
    beBytes 1 listed.length ++
      beBytes 1 (if found.length < 12 then 64 else (listed.getLastD 0).val + 1) ++
      listed.flatMap fun i => beBytes 4 (((vget s.reels i).map (·.reel)).getD 0) := by
  simp only [listItems, nextStart_eq]

/-- READ ORDER of a selected row (R88, R182). -/
theorem readOrderBody_some {i : RowId} {row : OrderRow} (hn : item p 2 1 ≤ 1)
    (hs : selectedRow s (item p 0 1) (item p 1 1) = some (some i)) (hrow : vget s.rows i = some row) :
    readOrderBody p s =
      (s, ⟨.ok, if item p 2 1 = 0 then orderItems s i row else orderResultItems row⟩) := by
  simp [readOrderBody, hs, Nat.not_lt.2 hn, hrow, ok]

theorem readOrderBody_empty {i : RowId} (hn : item p 2 1 ≤ 1)
    (hs : selectedRow s (item p 0 1) (item p 1 1) = some (some i)) (hrow : vget s.rows i = none) :
    readOrderBody p s = (s, ⟨.noSuchOrder, []⟩) := by
  simp [readOrderBody, hs, Nat.not_lt.2 hn, hrow, reply]

theorem readOrderBody_none (hn : item p 2 1 ≤ 1)
    (hs : selectedRow s (item p 0 1) (item p 1 1) = some none) :
    readOrderBody p s = (s, ⟨.noSuchOrder, []⟩) := by
  simp [readOrderBody, hs, Nat.not_lt.2 hn, reply]

/-- Selector 0 names a row by its tag (R88). -/
theorem selectedRow_tag {n : Nat} (h : n ≤ 63) : selectedRow s 0 n = some (rowOfTag s n) := by
  simp [selectedRow, h]

/-- Selector 1 names a row by its number (R88). -/
theorem selectedRow_row (i : RowId) : selectedRow s 1 i.val = some (some i) := by
  simp [selectedRow, i.isLt]

theorem readStandBody_eq {st : StandId} (hst : item p 0 1 = st.val + 1) : readStandBody p s =
    if 2 < item p 1 1 then (s, ⟨.badValue, []⟩) else (s, ⟨.ok, standSection s st (item p 1 1)⟩) := by
  simp only [readStandBody, hst, standOf_val]; rfl

theorem readLineBody_eq {l : LineId} (hl : item p 0 1 = l.val + 1) : readLineBody p s =
    if 8 < item p 1 1 then (s, ⟨.badValue, []⟩) else (s, ⟨.ok, lineSection s l (item p 1 1)⟩) := by
  simp only [readLineBody, hl, lineOfNumber_val]; rfl

theorem readParameterBody_some {t : Target} (h : targetOf (item p 0 1) (item p 1 1) = some t) :
    readParameterBody p s = (s, ⟨.ok, beBytes 4 (readParam s t (item p 2 1))⟩) := by
  simp only [readParameterBody, h]; rfl

theorem readParameterBody_none (h : targetOf (item p 0 1) (item p 1 1) = none) :
    readParameterBody p s = (s, ⟨.badValue, []⟩) := by
  simp only [readParameterBody, h]; rfl

theorem readParam_stand (st : StandId) (j : Fin 14) : readParam s (.stand st) j.val = standParam s st j := by
  simp [readParam, j.isLt]

theorem readParam_line (l : LineId) (j : Fin 4) : readParam s (.line l) j.val = lineParam s l j := by
  simp [readParam, j.isLt]

end Lookups

/-- Settles O53: each lookup's body answers from the state and leaves it, and the parameter run that the frame
ends shows in no answer. -/
theorem lookupsAnswer : Obligations.LookupsAnswer := by
  intro ad p s h
  refine ⟨fun hp => ⟨fun hf => ?_, fun i r hf hr => ?_⟩,
    fun hp st arm hst harm => ⟨fun hb => ?_, fun i r hb hr => ?_⟩,
    fun hp => ⟨fun hn => ?_, fun hn => ?_⟩,
    fun hp hn => ⟨fun i row hsel hrow => ?_, fun i h0 h1 hrow => ?_, fun h0 h1 htag => ?_⟩,
    fun hp st hst => ?_, fun hp l hl => ?_,
    fun hp => ⟨fun st j h0 h1 h2 => ?_, fun l j h0 h1 h2 => ?_, fun h0 => ?_⟩⟩
  · exact answerCommand_lookup h hp (readReelBody_none hf)
  · exact answerCommand_lookup h hp (readReelBody_some hf hr)
  · exact answerCommand_lookup h hp (readArmBody_none hst harm hb)
  · exact answerCommand_lookup h hp (readArmBody_some hst harm hb hr)
  · have body := listReelsBody_ok (s := endParamRun s) hn
    rw [listItems_eq] at body
    exact answerCommand_lookup h hp body
  · exact answerCommand_lookup h hp (listReelsBody_badValue hn)
  · have sel : selectedRow (endParamRun s) (item p 0 1) (item p 1 1) = some (some i) := by
      rcases hsel with ⟨h0, h1, htag⟩ | ⟨h0, h1⟩
      · rw [h0, selectedRow_tag h1]; exact congrArg some htag
      · rw [h0, h1, selectedRow_row]
    exact answerCommand_lookup h hp (readOrderBody_some hn sel hrow)
  · have sel : selectedRow (endParamRun s) (item p 0 1) (item p 1 1) = some (some i) := by
      rw [h0, h1, selectedRow_row]
    exact answerCommand_lookup h hp (readOrderBody_empty hn sel hrow)
  · have sel : selectedRow (endParamRun s) (item p 0 1) (item p 1 1) = some none := by
      rw [h0, selectedRow_tag h1]; exact congrArg some htag
    exact answerCommand_lookup h hp (readOrderBody_none hn sel)
  · have low : item p 1 1 ≤ 2 → exec (.readStand ad p) s = .next { s with
        port := answering s.port 0x22 .ok (standSection s st (item p 1 1)) } := fun hn =>
      answerCommand_lookup h hp ((readStandBody_eq hst).trans (if_neg (by omega)))
    refine ⟨fun hn => ?_, fun hn => ?_, fun hn => ?_, fun hn => ?_⟩
    · rw [low (by omega), hn]; rfl
    · rw [low (by omega), hn]; rfl
    · rw [low (by omega), hn]; rfl
    · exact answerCommand_lookup h hp ((readStandBody_eq hst).trans (if_pos hn))
  · have low : item p 1 1 ≤ 8 → exec (.readLine ad p) s = .next { s with
        port := answering s.port 0x23 .ok (lineSection s l (item p 1 1)) } := fun hn =>
      answerCommand_lookup h hp ((readLineBody_eq hl).trans (if_neg (by omega)))
    refine ⟨fun hn => ?_, fun h1 h8 => ?_, fun hn => ?_⟩
    · rw [low (by omega), hn]; rfl
    · have h0 : (item p 1 1 == 0) = false := by simp; omega
      rw [low h8, lineSection, h0]; rfl
    · exact answerCommand_lookup h hp ((readLineBody_eq hl).trans (if_pos hn))
  · have body := readParameterBody_some (s := endParamRun s) (p := p) (t := .stand st)
      (by rw [h0, h1, targetOf_stand])
    rw [h2, readParam_stand] at body
    exact answerCommand_lookup h hp body
  · have body := readParameterBody_some (s := endParamRun s) (p := p) (t := .line l)
      (by rw [h0, h1, targetOf_line])
    rw [h2, readParam_line] at body
    exact answerCommand_lookup h hp body
  · exact answerCommand_lookup h hp (readParameterBody_none (targetOf_none h0 _))

end Sys2Proof.Machine
end

section
/-! THREAD REEL and STOP REEL (R29, R33, R84), and what a close makes of the records of its order (R30, R32). -/

namespace Sys2Proof.Machine

open Sys2Proof

/-! ## Look-ups in the Reel Table -/

/-- Two states have records of the same numbers in the same slots. -/
def SameNumbers (s t : State) : Prop :=
  ∀ i, (vget t.reels i).map (·.reel) = (vget s.reels i).map (·.reel)

section Numbers

variable {s t : State}

theorem SameNumbers.refl (s : State) : SameNumbers s s := fun _ => rfl

theorem SameNumbers.trans {u : State} (h : SameNumbers s t) (k : SameNumbers t u) : SameNumbers s u :=
  fun i => (k i).trans (h i)

theorem SameNumbers.of_reels (h : t.reels = s.reels) : SameNumbers s t := fun i => by rw [h]

/-- The slot of a reel number is found by the numbers alone. -/
theorem SameNumbers.findReel_eq (h : SameNumbers s t) (n : Nat) : findReel t n = findReel s n := by
  have any : ∀ (u : State) (i : SlotId), ((vget u.reels i).any fun r => r.reel == n) =
      ((vget u.reels i).map (·.reel)).any (· == n) := fun u i => by cases vget u.reels i <;> rfl
  unfold findReel
  refine List.find?_congr fun i _ => ?_
  rw [any, any, h i]

theorem setReel_sameNumbers {i : SlotId} {x y : ReelRecord} (h : vget s.reels i = some x)
    (hn : y.reel = x.reel) : SameNumbers s (setReel s i (some y)) := by
  intro j
  rw [setReel_reels, vget_vset]
  split
  · next e => subst e; simp [h, hn]
  · rfl

theorem setReel_map_sameNumbers (i : SlotId) {f : ReelRecord → ReelRecord} (hf : ∀ r, (f r).reel = r.reel) :
    SameNumbers s (setReel s i ((vget s.reels i).map f)) := by
  intro j
  rw [setReel_reels, vget_vset]
  split
  · next e => subst e; cases vget s.reels j <;> simp [hf]
  · rfl

theorem untagReel_sameNumbers (row : OrderRow) (n : Nat) (s : State) :
    SameNumbers s (untagReel row n s) := by
  unfold untagReel
  split
  · exact setReel_map_sameNumbers _ fun _ => rfl
  · exact .refl s

theorem abortReturn_sameNumbers (row : OrderRow) (why : Option OrderReason) (s : State) :
    SameNumbers s (abortReturn row why s) := by
  unfold abortReturn
  split
  · split
    · next e =>
      split
      · refine SameNumbers.trans ?_ (.of_reels (startIfDue_reels _ _))
        exact setReel_sameNumbers e rfl
      · exact .refl s
    · exact .refl s
  · exact .refl s

/-- A record of the number found carries the order's tag: it is the order's reel (R30). -/
theorem orderReel_eq {row : OrderRow} {n : Nat} {i : SlotId} {r : ReelRecord} (h : findReel s n = some i)
    (hr : vget s.reels i = some r) (ht : r.tag = some row.tag) : orderReel s row n = some i := by
  simp [orderReel, h, hr, ht, Option.filter]

theorem findReel_reel {n : Nat} {i : SlotId} {r : ReelRecord} (h : findReel s n = some i)
    (hr : vget s.reels i = some r) : r.reel = n := by
  obtain ⟨x, hx, hn⟩ := findReel_some h
  rw [hr] at hx
  cases hx
  exact hn

theorem runningReel_eq_none {st : StandId}
    (h : ∀ j x, vget s.reels j = some x → x.stand = st → x.state ≠ .running) : runningReel s st = none := by
  have : (indices 64).find? (fun i =>
      (vget s.reels i).any fun r => r.stand == st && r.state == .running) = none := by
    refine List.find?_eq_none.2 fun i _ => ?_
    cases e : vget s.reels i with
    | none => simp
    | some x => simpa using h i x e
  simp [runningReel, this]

end Numbers

/-! ## The records of an order that closes -/

section Release

variable {s : State} {row : OrderRow} {i : SlotId} {r : ReelRecord}

theorem untagReel_self {n : Nat} (hi : orderReel s row n = some i) (hr : vget s.reels i = some r) :
    vget (untagReel row n s).reels i = some { r with tag := none } := by
  simp [untagReel, hi, hr]

/-- The abort return changes a COMMITTED record alone (R32). -/
theorem abortReturn_not_committed (why : Option OrderReason) (hr : vget s.reels i = some r)
    (hs : r.state ≠ .committed) : vget (abortReturn row why s).reels i = some r := by
  unfold abortReturn
  split
  · next j hj =>
    split
    · next x hx =>
      split
      · next hc =>
        have : i ≠ j := by
          rintro rfl
          rw [hr] at hx
          cases hx
          exact hs (by simpa using hc)
        simp [vget_vset_ne, this, hr]
      · exact hr
    · exact hr
  · exact hr

/-- A close removes the tags last; before that it changes COMMITTED records alone, and no record's number. -/
theorem releaseOrderOf_untags (k : RowId) (row : OrderRow) (o : OrderState) (why : Option OrderReason)
    (d : Option DoneResults) (b : Bool) (s : State) :
    ∃ u, releaseOrderOf k row o why d b s = untagOrder row u ∧ SameNumbers s u ∧
      ∀ i r, vget s.reels i = some r → r.state ≠ .committed → vget u.reels i = some r := by
  have abort : ∀ u : State, u.reels = s.reels → SameNumbers s (abortReturn row why u) ∧
      ∀ i r, vget s.reels i = some r → r.state ≠ .committed →
        vget (abortReturn row why u).reels i = some r := fun u hu =>
    ⟨(SameNumbers.of_reels hu).trans (abortReturn_sameNumbers _ _ u),
      fun i r hr hs => abortReturn_not_committed why (by rw [hu]; exact hr) hs⟩
  obtain ⟨an, ar⟩ := abort (coastUnlessLost row b (setRow s k (some (closedRow row o why d)))) (by simp)
  unfold releaseOrderOf
  refine ⟨_, rfl, ?_⟩
  split <;> split
  · exact ⟨an, ar⟩
  · exact ⟨.of_reels rfl, fun _ _ h _ => h⟩
  · exact ⟨an.trans (.of_reels rfl), ar⟩
  · exact ⟨.of_reels rfl, fun _ _ h _ => h⟩

/-- The expiring reel of an order that closes, not COMMITTED, loses the order's tag alone (R30). -/
theorem releaseOrderOf_expiring {k : RowId} (o : OrderState) (why : Option OrderReason)
    (d : Option DoneResults) (b : Bool) (hi : findReel s row.expiring = some i)
    (hr : vget s.reels i = some r) (ht : r.tag = some row.tag) (hs : r.state ≠ .committed) :
    vget (releaseOrderOf k row o why d b s).reels i = some { r with tag := none } := by
  obtain ⟨u, e, numbers, kept⟩ := releaseOrderOf_untags k row o why d b s
  have hu := kept i r hr hs
  rw [e]
  exact untagReel_untagged (untagReel_self (orderReel_eq ((numbers.findReel_eq _).trans hi) hu ht) hu) rfl

end Release

section CloseOrder

variable {s : State} {k : RowId} {row : OrderRow} {o : OrderState} {why : OrderReason} {b : Bool}

/-- The row of a close stands closed after the evaluations that the close causes. -/
theorem closeOrder_rows (h : vget s.rows k = some row) (ho : row.state.isOpen = true)
    (hw : o.waiting = false) :
    vget (closeOrder k o why b s).rows k = some (closedRow row o (some why) none) := by
  refine settle_rows ?_ hw
  rw [closeRow_rows _ _ _ _ h ho, vget_vset_self]

/-- A record that a close leaves without tag stays as it is in the evaluations that the close causes. -/
theorem closeOrder_reels {i : SlotId} {r : ReelRecord} (h : vget s.rows k = some row)
    (ho : row.state.isOpen = true)
    (hr : vget (releaseOrderOf k row o (some why) none b s).reels i = some r) (ht : r.tag = none) :
    vget (closeOrder k o why b s).reels i = some r := by
  refine (untagged_evalClosed ht).settle _ _ ?_
  rw [closeRow_reels _ _ _ _ h ho]; exact hr

end CloseOrder

/-! ## The two commands -/

section Commands

variable {s : State} {p : List Byte} {i : SlotId} {r : ReelRecord}

/-- THREAD REEL of a record at RUN on an ONLINE stand without a RUNNING record (R29). -/
theorem threadReelBody_ok {arm : Arm} (hi : findReel s (item p 0 4) = some i) (hr : vget s.reels i = some r)
    (hs : threadable r = true) (ho : isOnline s r.stand = true) (ha : r.arm = some arm)
    (hp : armPosition s r.stand arm = some .run) (hn : runningReel s r.stand = none) :
    threadReelBody p s = ok [] (startTracker r.stand r.reel arm none
      (setArmContext (setReel s i (some (threadedRecord r))) r.stand arm emptyArm)) := by
  simp [threadReelBody, hi, hr, hs, ho, ha, hp, hn, Option.filter]

/-- STOP REEL of a RUNNING record whose order, if any, is not PASTING (R33, R84). -/
theorem stopReelBody_ok (hi : findReel s (item p 0 4) = some i) (hr : vget s.reels i = some r)
    (hs : r.state = .running) (hx : (expiringOrder s r).any (fun y => y.2.state == .pasting) = false) :
    stopReelBody p s = ok [] (cancelStopped (expiringOrder s r)
      (stopTracker r.stand (setReel s i (some (stoppedRecord s r))))) := by
  simp [stopReelBody, hi, hr, hs, hx]

theorem stopReelBody_pasting (hi : findReel s (item p 0 4) = some i) (hr : vget s.reels i = some r)
    (hs : r.state = .running) (hx : (expiringOrder s r).any (fun y => y.2.state == .pasting) = true) :
    stopReelBody p s = reply .wrongState s := by
  simp [stopReelBody, hi, hr, hs, hx]

theorem expiringOrder_none (ht : r.tag = none) : expiringOrder s r = none := by simp [expiringOrder, ht]

theorem expiringOrder_some {g : Nat} {k : RowId} {row : OrderRow} (ht : r.tag = some g)
    (hk : rowOfTag s g = some k) (hrow : vget s.rows k = some row) (he : row.expiring = r.reel) :
    expiringOrder s r = some (k, row) := by
  simp [expiringOrder, ht, hk, hrow, he, Option.filter]

/-- The stop of an order's expiring reel before its commit or its paste cancels the order (R84). -/
theorem cancelStopped_some {k : RowId} {row : OrderRow}
    (h : row.state = .armed ∨ row.state = .held ∨ row.state = .accelerating ∨ row.state = .matched) :
    cancelStopped (some (k, row)) s = closeOrder k .cancelled .reelStopped false s := by
  rcases h with h | h | h | h <;> simp [cancelStopped, h]

end Commands

theorem endParamRun_onlyIn (s : State) : OnlyIn [.port] s (endParamRun s) := by
  intro b hb
  cases b
  case port => simp at hb
  all_goals rfl

theorem setAnswer_onlyIn (x : Option Answer) (s : State) : OnlyIn [.port] s (setAnswer x s) := by
  intro b hb
  cases b
  case port => simp at hb
  all_goals rfl

theorem arbitrate_onlyIn (s : State) : OnlyIn [.bus] s (arbitrate s) := by
  rw [arbitrate_bus]
  intro b hb
  cases b
  case bus => simp at hb
  all_goals rfl

/-- The state in which STOP REEL closes the order of the stopped record (R33). -/
def stoppedState (s : State) (i : SlotId) (r : ReelRecord) : State :=
  stopTracker r.stand (setReel (endParamRun s) i (some (stoppedRecord s r)))

/-- STOP REEL of the expiring reel of an order before its paste: its close, answered, and the arbiter's
choice. -/
theorem stopReel_cancels {ad : Byte} {p : List Byte} {s : State} {i : SlotId} {r : ReelRecord} {g : Nat}
    {k : RowId} {row : OrderRow} (h : Addressed s ad) (hp : p.length = 4)
    (hi : findReel s (item p 0 4) = some i) (hr : vget s.reels i = some r) (hs : r.state = .running)
    (ht : r.tag = some g) (hk : rowOfTag s g = some k) (hrow : vget s.rows k = some row)
    (he : row.expiring = r.reel)
    (hst : row.state = .armed ∨ row.state = .held ∨ row.state = .accelerating ∨ row.state = .matched) :
    exec (.stopReel ad p) s = .next (arbitrate (setAnswer (some ⟨0x8A, [statusCode .ok]⟩)
      (closeOrder k .cancelled .reelStopped false (stoppedState s i r)))) := by
  have order : expiringOrder (endParamRun s) r = some (k, row) := expiringOrder_some ht hk hrow he
  have notPasting : (expiringOrder (endParamRun s) r).any (fun y => y.2.state == .pasting) = false := by
    rw [order]; rcases hst with h | h | h | h <;> simp [h]
  have body := stopReelBody_ok (p := p) (s := endParamRun s) hi hr hs notPasting
  rw [order, cancelStopped_some hst] at body
  rw [exec, execStopReel, answerAndSend, withLength_eq hp, takeCommand_addressed h, body]
  rfl

theorem stoppedState_keeps {s : State} {i : SlotId} {r : ReelRecord} (hr : vget s.reels i = some r) :
    Keeps (endParamRun s) (stoppedState s i r) :=
  stopTracker_keeps (setReel_keeps (.refl _) (some_recordKept hr ⟨rfl, rfl, rfl, rfl, rfl⟩))

/-- Settles O52: each command is one write of the record, the tracker and, for STOP REEL, the order's close. -/
theorem threadAndStop : Obligations.ThreadAndStop := by
  intro ad p s i r h hp hi hr
  refine ⟨fun arm hs ho ha hpos hn => ?_, fun hs => ⟨fun ht => ?_, fun g k row ht hk hrow he =>
    ⟨fun hpa hw => ?_, fun hst => ⟨_, stopReel_cancels h hp hi hr hs ht hk hrow he hst, ?_⟩⟩⟩⟩
  · have threads : threadable r = true := by rcases hs with e | e | e <;> simp [threadable, e]
    have body := threadReelBody_ok (p := p) (s := endParamRun s) hi hr threads (beq_iff_eq.2 ho) ha
      hpos (runningReel_eq_none hn)
    rw [exec, execThreadReel, answerCommand, withLength_eq hp, takeCommand_addressed h, body]
    rfl
  · have order : expiringOrder (endParamRun s) r = none := expiringOrder_none ht
    have body := stopReelBody_ok (p := p) (s := endParamRun s) hi hr hs (by rw [order]; rfl)
    rw [order] at body
    rw [exec, execStopReel, answerAndSend, withLength_eq hp, takeCommand_addressed h, body]
    rfl
  · have order : expiringOrder (endParamRun s) r = some (k, row) := expiringOrder_some ht hk hrow he
    have body := stopReelBody_pasting (p := p) (s := endParamRun s) hi hr hs (by simp [order, hpa])
    rw [exec, execStopReel, answerAndSend, withLength_eq hp, takeCommand_addressed h, body]
    exact congrArg Host.Outcome.next (arbitrate_eq_self (s := setAnswer _ (endParamRun s)) hw)
  · have hopen : row.state.isOpen = true := by rcases hst with e | e | e | e <;> simp [e, OrderState.isOpen]
    have hk' : vget (stoppedState s i r).rows k = some row := hrow
    have tag : r.tag = some row.tag := by
      obtain ⟨y, hy, rfl⟩ := rowOfTag_some hk
      rw [hrow] at hy
      cases hy
      exact ht
    have slot : findReel (stoppedState s i r) row.expiring = some i := by
      rw [he, findReel_reel hi hr]
      exact ((setReel_sameNumbers (s := endParamRun s) (y := stoppedRecord s r) hr rfl).findReel_eq _).trans hi
    have stopped : vget (stoppedState s i r).reels i = some (stoppedRecord s r) := vget_vset_self ..
    have kept := closeOrder_keeps (r := k) (o := .cancelled) (why := .reelStopped) (b := false)
      (stoppedState_keeps hr)
    refine ⟨?_, ?_, ?_, ?_, ?_, ?_⟩
    · rw [arbitrate_rows]; exact closeOrder_rows hk' hopen rfl
    · rw [arbitrate_reels]
      exact closeOrder_reels hk' hopen
        (releaseOrderOf_expiring _ _ _ _ slot stopped tag (by simp [stoppedRecord])) rfl
    · rw [arbitrate_trackers]
      exact (congrArg (vget · r.stand) (closeOrder_trackers ..)).trans (vget_vset_self ..)
    · intro st hne
      rw [arbitrate_trackers]
      exact (congrArg (vget · st) (closeOrder_trackers ..)).trans (vget_vset_ne _ _ _ _ hne)
    · rw [arbitrate_port]; rfl
    · have close : OnlyIn [.reels, .verifies, .trackers, .rows, .schedules, .sequencers, .bus, .port]
          (endParamRun s) (closeOrder k .cancelled .reelStopped false (stoppedState s i r)) := by
        refine kept.onlyIn fun b hb hm => ?_
        cases b
        case arms => exact closeOrder_arms ..
        case outputs => exact closeOrder_outputs ..
        case stands => exact closeOrder_stands ..
        all_goals simp at hb hm
      exact ((((endParamRun_onlyIn s).mono (by simp)).trans close).trans
        ((setAnswer_onlyIn _ _).mono (by simp))).trans ((arbitrate_onlyIn _).mono (by simp))

end Sys2Proof.Machine
end

section
/-! Revolution marks and tape marks (R6 to R10, R25, R116 to R118). -/

namespace Sys2Proof.Machine

open Sys2Proof

/-- Every verification run in progress is still in progress, unchanged. -/
def RunsKept (s t : State) : Prop := ∀ st v, vget s.verifies st = some v → vget t.verifies st = some v

section Runs

variable {s t : State}

theorem RunsKept.refl (s : State) : RunsKept s s := fun _ _ h => h

theorem RunsKept.of_verifies {u : State} (h : RunsKept s t) (hu : u.verifies = t.verifies) : RunsKept s u :=
  fun st v hv => by rw [hu]; exact h st v hv

/-- A run starts only where none is in progress (R24). -/
theorem startIfDue_runs {r : ReelRecord} (h : RunsKept s t) : RunsKept s (startIfDue r t) := by
  unfold startIfDue
  split
  · next arm e =>
    intro st v hv
    have idle : vget t.verifies r.stand = none := by
      have := (Option.filter_eq_some_iff.1 e).2
      simp only [Bool.and_eq_true, Option.isNone_iff_eq_none] at this
      exact this.2
    have ne : st ≠ r.stand := by
      rintro rfl
      rw [h _ v hv] at idle
      cases idle
    simpa [startRun, vget_vset_ne, ne] using h st v hv
  · exact h

theorem abortReturn_runs {row : OrderRow} {why : Option OrderReason} (h : RunsKept s t) :
    RunsKept s (abortReturn row why t) := by
  unfold abortReturn
  split
  · split
    · split
      · exact startIfDue_runs (h.of_verifies rfl)
      · exact h
    · exact h
  · exact h

theorem releaseOrderOf_runs {r : RowId} {row : OrderRow} {o : OrderState} {why : Option OrderReason}
    {d : Option DoneResults} {b : Bool} (h : RunsKept s t) : RunsKept s (releaseOrderOf r row o why d b t) := by
  have abort : RunsKept s (if abortable t row = true then
      abortReturn row why (coastUnlessLost row b (setRow t r (some (closedRow row o why d))))
      else setRow t r (some (closedRow row o why d))) := by
    split
    · exact abortReturn_runs (h.of_verifies (by simp))
    · exact h
  unfold releaseOrderOf
  refine RunsKept.of_verifies ?_ (untagOrder_verifies ..)
  split
  · exact abort
  · exact abort

theorem closeOrder_runs {r : RowId} {o : OrderState} {why : OrderReason} {b : Bool} (h : RunsKept s t) :
    RunsKept s (closeOrder r o why b t) := by
  refine RunsKept.of_verifies ?_ (settle_verifies ..)
  cases e : vget t.rows r with
  | none => rw [closeRow_none _ _ _ _ e]; exact h
  | some row =>
    cases ho : row.state.isOpen with
    | false => rw [closeRow_not_open _ _ _ _ e ho]; exact h
    | true => exact (releaseOrderOf_runs h).of_verifies (closeRow_verifies _ _ _ _ e ho)

/-! ### The sequencer -/

@[simp] theorem modRow_verifies (r : RowId) (f : OrderRow → OrderRow) (s : State) :
    (modRow r f s).verifies = s.verifies := by
  unfold modRow; (repeat' split) <;> rfl

@[simp] theorem writeRowState_verifies (r : RowId) (st : StandId) (x : OrderState) (s : State) :
    (writeRowState r st x s).verifies = s.verifies := by simp [writeRowState]

theorem retryMatch_runs {st : StandId} {q : Sequencer} (h : RunsKept s t) :
    RunsKept s (retryMatch st q t) := by
  unfold retryMatch
  dsimp only
  split
  · exact closeOrder_runs (h.of_verifies (by simp))
  · exact h.of_verifies (by simp)

theorem matchLoss_runs {st : StandId} {q : Sequencer} (h : RunsKept s t) : RunsKept s (matchLoss st q t) := by
  unfold matchLoss
  split
  · exact h
  · split
    · exact retryMatch_runs h
    · exact closeOrder_runs h

theorem tapeRevolution_runs {st : StandId} {q : Sequencer} {n : Nat} (h : RunsKept s t) :
    RunsKept s (tapeRevolution st q n t) := by
  unfold tapeRevolution
  split
  · split
    · exact closeOrder_runs h
    · exact h
  · exact h

theorem accelInterval_verifies (st : StandId) (q : Sequencer) (w : Nat) (s : State) :
    (accelInterval st q w s).verifies = s.verifies := by
  unfold accelInterval; (repeat' split) <;> simp

theorem sequencerInterval_runs {st : StandId} {arm : Arm} {w n : Nat} (h : RunsKept s t) :
    RunsKept s (sequencerInterval st arm w n t) := by
  have matched : ∀ q, RunsKept s (matchedInterval st q w n t) := fun q => by
    unfold matchedInterval
    split
    · exact tapeRevolution_runs h
    · split
      · exact matchLoss_runs h
      · exact tapeRevolution_runs h
  unfold sequencerInterval
  split
  · exact h
  · split
    · split
      · exact h.of_verifies (accelInterval_verifies ..)
      · exact matched _
      · exact h
      · exact h
    · exact h

/-! ### The tracker -/

@[simp] theorem runoutCheck_verifies (st : StandId) (s : State) :
    (runoutCheck st s).verifies = s.verifies := by
  unfold runoutCheck; dsimp only; (repeat' split) <;> simp

@[simp] theorem finishSample_verifies (st : StandId) (x : Tracker) (c : Nat) (p : Pos) (s : State) :
    (finishSample st x c p s).verifies = s.verifies := by
  unfold finishSample; dsimp only; (repeat' split) <;> simp

@[simp] theorem rejectSample_verifies (st : StandId) (x : Tracker) (s : State) :
    (rejectSample st x s).verifies = s.verifies := by
  unfold rejectSample; split <;> simp

@[simp] theorem recoverySample_verifies (st : StandId) (x : Tracker) (c : Nat) (p : Pos) (s : State) :
    (recoverySample st x c p s).verifies = s.verifies := by
  unfold recoverySample recover; (repeat' split) <;> simp

/-- An interval at the tracker leaves every verification context. -/
@[simp] theorem trackerInterval_verifies (st : StandId) (arm : Arm) (w : Nat) (p : Pos) (s : State) :
    (trackerInterval st arm w p s).verifies = s.verifies := by
  unfold trackerInterval acceptSample; (repeat' split) <;> simp

end Runs

/-! ## The verification run at a mark -/

theorem pushCount_eq (n : Nat) (xs : List Nat) :
    pushCount n xs = (xs.take 2 ++ [n]).drop ((xs.take 2 ++ [n]).length - 2) := by
  match xs with
  | [] => rfl
  | [_] => rfl
  | _ :: _ :: _ => simp [pushCount]

/-- What a mark makes of a TURNING run (R25). -/
theorem turnMark_eq (tapes : Option Nat) (x : Turning) : turnMark tapes x =
    if x.marked = false then { x with marked := true }
    else match tapes with
      | none => x
      | some n => { x with count := min 255 (x.count + 1), lastTwo := pushCount n x.lastTwo } := by
  obtain ⟨rep, marked, count, lastTwo, deadline⟩ := x
  cases marked <;> cases tapes <;> rfl

section Mark

variable {s : State} {st : StandId} {arm : Arm} {v : VerifyRun}

theorem verifyMark_self (tapes : Option Nat) (h : vget s.verifies st = some v) (ha : v.arm = arm) :
    vget (verifyMark st arm tapes s).verifies st =
      some { v with turning := v.turning.map (turnMark tapes) } := by
  simp [verifyMark, h, ha]

/-- A run that waits for its ACCEPT or is of another arm takes nothing of a mark (R25). -/
theorem verifyMark_other (tapes : Option Nat) (h : vget s.verifies st = some v)
    (hv : v.arm ≠ arm ∨ v.turning = none) : vget (verifyMark st arm tapes s).verifies st = some v := by
  by_cases ha : v.arm = arm
  · have ht := hv.resolve_left (not_not_intro ha)
    rw [verifyMark_self tapes h ha]
    obtain ⟨reel, arm', turning⟩ := v
    simp_all
  · simp [verifyMark, h, ha]

end Mark

/-- The state at a revolution mark once the tracker and the sequencer have taken the interval that it closes, if
any; only the verification run is still to take the mark (R8). -/
def markDelivered (st : StandId) (arm : Arm) (s : State) : State :=
  let s1 := setArmContext s st arm (markArm (armContext s st arm) (standPos s st))
  match (armContext s st arm).lastMark with
  | none => s1
  | some m =>
    let w := distance (standPos s st) m
    sequencerInterval st arm w (armContext s st arm).tapeCount (trackerInterval st arm w (standPos s st) s1)

/-- The tape count of the interval that a mark closes. -/
def closedTapes (s : State) (st : StandId) (arm : Arm) : Option Nat :=
  (armContext s st arm).lastMark.map fun _ => (armContext s st arm).tapeCount

section Deliver

variable (st : StandId) (arm : Arm) (s : State)

theorem exec_revolutionMark : ∃ t, exec (.revolutionMark st arm) s = .next t ∧
    (t = verifyMark st arm (closedTapes s st arm) (markDelivered st arm s) ∧
        (armContext s st arm).lastMark = none ∨
      t = arbitrate (verifyMark st arm (closedTapes s st arm) (markDelivered st arm s))) := by
  simp only [exec, execRevolutionMark, closedTapes, markDelivered]
  cases (armContext s st arm).lastMark with
  | none => exact ⟨_, rfl, .inl ⟨rfl, rfl⟩⟩
  | some m => exact ⟨_, rfl, .inr rfl⟩

theorem markDelivered_arms : (markDelivered st arm s).arms =
    (setArmContext s st arm (markArm (armContext s st arm) (standPos s st))).arms := by
  unfold markDelivered; dsimp only; split <;> simp

theorem markDelivered_outputs : (markDelivered st arm s).outputs = s.outputs := by
  unfold markDelivered; dsimp only; split <;> simp [setArmContext]

theorem markDelivered_stands : (markDelivered st arm s).stands = s.stands := by
  unfold markDelivered; dsimp only; split <;> simp [setArmContext]

theorem markDelivered_keeps : Keeps s (markDelivered st arm s) := by
  have mark : Keeps s (setArmContext s st arm (markArm (armContext s st arm) (standPos s st))) :=
    setArmContext_keeps (.refl s) (Nat.zero_le _)
  unfold markDelivered
  dsimp only
  split
  · exact mark
  · exact sequencerInterval_keeps (trackerInterval_keeps mark)

theorem markDelivered_runs : RunsKept s (markDelivered st arm s) := by
  unfold markDelivered
  dsimp only
  split
  · exact .refl s
  · exact sequencerInterval_runs ((RunsKept.refl s).of_verifies (trackerInterval_verifies ..))

end Deliver

/-- Settles O21: the mark is latched in its context, the interval delivered leaves the runs in progress, and the
run of the arm then takes the mark. -/
theorem revolutionMark : Obligations.RevolutionMark := by
  intro st arm s
  obtain ⟨t, ht, hcase⟩ := exec_revolutionMark st arm s
  have arms : t.arms = (setArmContext s st arm (markArm (armContext s st arm) (standPos s st))).arms := by
    rcases hcase with ⟨rfl, -⟩ | rfl <;> simp [markDelivered_arms]
  have verifies : t.verifies =
      (verifyMark st arm (closedTapes s st arm) (markDelivered st arm s)).verifies := by
    rcases hcase with ⟨rfl, -⟩ | rfl <;> simp
  have keeps : Keeps s t := by
    have k := verifyMark_keeps (st := st) (arm := arm) (n := closedTapes s st arm)
      (markDelivered_keeps st arm s)
    rcases hcase with ⟨rfl, -⟩ | rfl
    · exact k
    · exact arbitrate_keeps k
  have runs := markDelivered_runs st arm s
  refine ⟨t, ht, ?_, fun st' arm' hne => ?_, ?_, fun hm => ?_, fun v hv hother => ?_,
    fun v x hv ha hx => ?_⟩
  · rw [armContext, arms]
    exact armContext_setArmContext_self ..
  · rw [armContext, arms]
    exact armContext_setArmContext_ne hne
  · refine keeps.onlyIn fun b hb hb' => ?_
    cases b
    case outputs => rcases hcase with ⟨rfl, -⟩ | rfl <;> simp [sameIn, markDelivered_outputs]
    case stands => rcases hcase with ⟨rfl, -⟩ | rfl <;> simp [sameIn, markDelivered_stands]
    all_goals simp at hb hb'
  · have first : t = verifyMark st arm none (setArmContext s st arm
        (markArm (armContext s st arm) (standPos s st))) := by
      rw [exec, execRevolutionMark] at ht
      simp only [hm] at ht
      exact (Host.Outcome.next.inj ht).symm
    refine keeps.onlyIn fun b hb hb' => ?_
    rw [first]
    cases b
    case arms | verifies => simp at hb
    case now | resetHeld | lines | allocStart | settings | pending => simp at hb'
    all_goals simp [sameIn, setArmContext]
  · rw [verifies]
    exact verifyMark_other _ (runs st v hv) hother
  · rw [verifies, verifyMark_self _ (runs st v hv) ha, hx, Option.map_some, turnMark_eq]
    unfold closedTapes
    cases hm : (armContext s st arm).lastMark <;> simp [pushCount_eq]

/-! ## Tape marks -/

theorem inTolerance_iff (q : Sequencer) (w : Nat) : inTolerance q w = true ↔
    q.circumference ≤ w + q.tolerance ∧ w ≤ q.circumference + q.tolerance := by
  simp [inTolerance]

theorem vset_vset {α : Type} {n : Nat} (v : Vector α n) (i : Fin n) (x y : α) :
    vset (vset v i x) i y = vset v i y := by simp [vset]

/-- A tape mark that starts PASTING with its paste position ahead of the line (R116 to R118). -/
theorem startPasting_ahead {st : StandId} {q : Sequencer} {w : Nat} {pt : Pos} {c : Commitment} {s : State}
    {row : OrderRow} (hrow : vget s.rows q.row = some row) (hs : row.state = .matched)
    (hp : atOrAfter (standPos s st) (firePositions pt w (standSpeed s st) c.frozen).pp = false) :
    startPasting st q w pt c s = raiseRow q.row st { s with
      rows := vset s.rows q.row (some { row with
        state := .pasting, fire := some (firePositions pt w (standSpeed s st) c.frozen) })
      sequencers := vset s.sequencers st (some { q with
        phase := .pasting, cNew := some w, pasteSpeed := some (standSpeed s st), pasteFired := false
        faultAfterPaste := false }) } := by
  have pos : ∀ u : State, standPos (raiseRow q.row st u) st = standPos u st := fun u => by
    unfold raiseRow raiseBit; split <;> rfl
  simp only [startPasting, writeRowState, modRow, hrow, hs, OrderState.committed, if_true,
    setSequencer_rows, setRow_rows, vget_vset_self, pos]
  rw [if_neg (by
    change ¬ atOrAfter (standPos s st) (firePositions pt w (standSpeed s st) c.frozen).pp = true
    simp [hp])]
  simp only [setRow, setSequencer, vset_vset]

theorem raiseRow_port (r : RowId) (st : StandId) (s : State) :
    (raiseRow r st s).port = raisedRowPort s r st := by
  unfold raiseRow raiseBit raisedRowPort standEnabled rowBit
  split <;> rfl

theorem raiseRow_onlyIn (r : RowId) (st : StandId) (s : State) : OnlyIn [.port] s (raiseRow r st s) := by
  intro b hb
  unfold raiseRow raiseBit
  split
  · cases b
    case port => simp at hb
    all_goals rfl
  · cases b <;> rfl

/-- A tape mark at the sequencer that does not start PASTING changes nothing (R10, R116). -/
theorem sequencerTape_other {st : StandId} {arm : Arm} {pt : Pos} {s : State}
    (h : ∀ q row p w, ¬ (vget s.sequencers st = some q ∧ q.phase = .matched ∧ q.newArm = arm ∧
      (armContext s st arm).lastInterval = some w ∧ vget s.rows q.row = some row ∧ row.place = some p ∧
      inTolerance q w = true ∧ atOrAfter pt (back p.q w) = true)) : sequencerTape st arm pt s = s := by
  unfold sequencerTape
  split
  · rfl
  · next q hq =>
    split
    · next hm =>
      split
      · next w p c hw hp hc =>
        split
        · next ht =>
          obtain ⟨row, hrow, hplace⟩ := Option.bind_eq_some_iff.1 hp
          simp only [Bool.and_eq_true, beq_iff_eq] at hm ht
          exact absurd ⟨hq, hm.1, hm.2, hw, hrow, hplace, ht.1, ht.2⟩ (h q row p w)
        · rfl
      · rfl
    · rfl

theorem sequencerTape_starts {st : StandId} {arm : Arm} {pt : Pos} {s : State} {q : Sequencer}
    {row : OrderRow} {p : Placement} {w : Nat} {c : Commitment} (hq : vget s.sequencers st = some q)
    (hm : q.phase = .matched) (ha : q.newArm = arm) (hw : (armContext s st arm).lastInterval = some w)
    (hrow : vget s.rows q.row = some row) (hp : row.place = some p) (hc : row.commitment = some c)
    (hin : inTolerance q w = true) (hat : atOrAfter pt (back p.q w) = true) :
    sequencerTape st arm pt s = startPasting st q w pt c s := by
  simp [sequencerTape, hq, hm, ha, hw, hrow, hp, hc, hin, hat]

/-- The state once a tape mark has been counted at an arm (R9). -/
def tapeCounted (s : State) (st : StandId) (arm : Arm) : State :=
  setArmContext s st arm (tapeArm (armContext s st arm))

theorem tapeCounted_lastInterval (s : State) (st : StandId) (arm : Arm) :
    (armContext (tapeCounted s st arm) st arm).lastInterval = (armContext s st arm).lastInterval := by
  rw [tapeCounted, armContext_setArmContext_self]; rfl

theorem exec_tapeMark {s : State} {st : StandId} {arm : Arm} (h : spliceArm s st = some arm) :
    exec (.tapeMark st) s =
      .next (arbitrate (sequencerTape st arm (standPos s st) (tapeCounted s st arm))) := by
  simp only [exec, execTapeMark, h, tapeCounted]

/-- Settles O22: the mark is counted at the arm, and its effect at the sequencer is the start of PASTING or
none. -/
theorem tapeMark : Obligations.TapeMark := by
  intro st s
  refine ⟨fun h => by simp only [exec, execTapeMark, h], fun arm h => ⟨_, exec_tapeMark h, ?_, ?_, ?_, ?_⟩⟩
  · rw [armContext, arbitrate_arms, sequencerTape_arms]
    exact armContext_setArmContext_self ..
  · intro st' arm' hne
    rw [armContext, arbitrate_arms, sequencerTape_arms]
    exact armContext_setArmContext_ne hne
  · intro hn hno
    rw [sequencerTape_other, arbitrate_eq_self (s := tapeCounted s st arm) hn]
    · exact setArmContext_onlyIn _ _ _ _
    · rintro q row p w ⟨hq, hm, ha, hw, hrow, hp, hin, hat⟩
      rw [tapeCounted_lastInterval] at hw
      obtain ⟨lo, hi⟩ := (inTolerance_iff q w).1 hin
      exact hno q row p w ⟨hq, hm, ha, hw, hrow, hp, lo, hi, (atOrAfter_iff _ _).1 hat⟩
  · rintro q row p w c hn ⟨hq, hm, ha, hw, hrow, hp, lo, hi, hat⟩ hc hs v f hahead
    have starts := sequencerTape_starts (s := tapeCounted s st arm) (pt := standPos s st) hq hm ha
      ((tapeCounted_lastInterval ..).trans hw) hrow hp hc ((inTolerance_iff q w).2 ⟨lo, hi⟩)
      ((atOrAfter_iff _ _).2 hat)
    have pasting := startPasting_ahead (s := tapeCounted s st arm) (st := st) (pt := standPos s st) (w := w)
      (c := c) hrow hs ((atOrAfter_eq_false_iff _ _).2 hahead)
    rw [starts, pasting, arbitrate_eq_self (by rw [NothingWaits, raiseRow_bus]; exact hn)]
    refine ⟨?_, ?_, ?_, ?_, ?_, ?_⟩
    · rw [raiseRow_rows]; exact vget_vset_self ..
    · rw [raiseRow_sequencers]; exact vget_vset_self ..
    · rw [raiseRow_port]; rfl
    · rw [raiseRow_sequencers]; exact fun j hj => vget_vset_ne _ _ _ _ hj
    · rw [raiseRow_rows]; exact fun j hj => vget_vset_ne _ _ _ _ hj
    · refine OnlyIn.trans (t := tapeCounted s st arm) ((setArmContext_onlyIn _ _ _ _).mono (by simp)) (OnlyIn.trans ?_
        ((raiseRow_onlyIn _ _ _).mono (by simp)))
      intro b hb
      cases b
      case rows | sequencers => simp at hb
      all_goals rfl

end Sys2Proof.Machine
end

section
/-! The knife (R13, R31, R47, R120, R121). -/

namespace Sys2Proof.Machine

open Sys2Proof

/-! ## Flags and the arbiter -/

/-- A raised flag whose report enable is on is set (R183). -/
theorem flagSet_raiseBit (s : State) {n : Nat} (hn : n < 28) : flagSet (raiseBit true n s) n = true := by
  simp [flagSet, raiseBit, setPort, hn]

theorem flagSet_raiseRow {s : State} {r : RowId} {st : StandId} (h : standParam s st 13 = 1) :
    flagSet (raiseRow r st s) (8 + r.val) = true := by
  rw [raiseRow, standEnabled, h]
  exact flagSet_raiseBit s (by simp only [rowBit]; omega)

theorem flagSet_of_port {s t : State} {n : Nat} (hp : t.port = s.port) (h : flagSet s n = true) :
    flagSet t n = true := by rw [flagSet, hp]; exact h

/-- The arbiter reads the controller and the clock alone. -/
theorem arbitrate_bus_congr {s t : State} (hb : t.bus = s.bus) (hn : t.now = s.now) :
    (arbitrate t).bus = (arbitrate s).bus := by
  have sends : sendable t = sendable s := by funext st; simp [sendable, hb]
  have bids : anyBid t = anyBid s := by simp [anyBid, hb]
  have request : (requestTurn t).bus = (requestTurn s).bus := by
    unfold requestTurn
    rw [hb, sends, hn]
    cases (cyclic s.bus.requestPtr).find? (sendable s) with
    | none => exact hb
    | some st =>
      dsimp only
      cases vget s.bus.queues st with
      | nil => exact hb
      | cons r rest => rfl
  have grant : (grantTurn t).bus = (grantTurn s).bus := by
    unfold grantTurn
    rw [hb, hn]
    cases (cyclic s.bus.grantPtr).find? fun st => vget s.bus.bids st with
    | none => exact hb
    | some st => rfl
  unfold arbitrate
  rw [hb, sends, bids]
  cases s.bus.pair with
  | free =>
    dsimp only
    by_cases h1 : (s.bus.lastTurn == .request && anyBid s) = true
    · rw [if_pos h1, if_pos h1]; exact grant
    · rw [if_neg h1, if_neg h1]
      by_cases h2 : (indices 8).any (sendable s) = true
      · rw [if_pos h2, if_pos h2]; exact request
      · rw [if_neg h2, if_neg h2]
        by_cases h3 : anyBid s = true
        · rw [if_pos h3, if_pos h3]; exact grant
        · rw [if_neg h3, if_neg h3]; exact hb
  | request st r b lim => exact hb
  | grant st lim => exact hb

/-! ## The parts of the knife -/

section Knife

variable {s : State} {st : StandId} {q : Sequencer} {row : OrderRow} {f : FirePositions} {c : Commitment}

@[simp] theorem expireOld_bus (row : OrderRow) (x : Option Nat) (s : State) :
    (expireOld row x s).bus = s.bus := by unfold expireOld; split <;> rfl
@[simp] theorem expireOld_rows (row : OrderRow) (x : Option Nat) (s : State) :
    (expireOld row x s).rows = s.rows := by unfold expireOld; split <;> rfl
@[simp] theorem expireOld_schedules (row : OrderRow) (x : Option Nat) (s : State) :
    (expireOld row x s).schedules = s.schedules := by unfold expireOld; split <;> rfl
@[simp] theorem expireOld_sequencers (row : OrderRow) (x : Option Nat) (s : State) :
    (expireOld row x s).sequencers = s.sequencers := by unfold expireOld; split <;> rfl

@[simp] theorem runNew_bus (st : StandId) (row : OrderRow) (arm : Arm) (x : Option Nat) (s : State) :
    (runNew st row arm x s).bus = s.bus := by unfold runNew; split <;> rfl
@[simp] theorem runNew_rows (st : StandId) (row : OrderRow) (arm : Arm) (x : Option Nat) (s : State) :
    (runNew st row arm x s).rows = s.rows := by unfold runNew; split <;> rfl
@[simp] theorem runNew_schedules (st : StandId) (row : OrderRow) (arm : Arm) (x : Option Nat) (s : State) :
    (runNew st row arm x s).schedules = s.schedules := by unfold runNew; split <;> rfl
@[simp] theorem runNew_sequencers (st : StandId) (row : OrderRow) (arm : Arm) (x : Option Nat) (s : State) :
    (runNew st row arm x s).sequencers = s.sequencers := by unfold runNew; split <;> rfl

/-- The records and the tracker at the knife: the output fired, the old reel expired, the new one running, and the
order's entry removed from the schedule. -/
def knifeChange (st : StandId) (q : Sequencer) (row : OrderRow) (f : FirePositions) (c : Commitment)
    (s : State) : State :=
  removeEntry (lineOf s st) q.row (runNew st row q.newArm q.cNew
    (expireOld row (stubAtKnife s st row f.pk) (fireOutput st .knife c.frozen.pulseWidth s)))

/-- The row as the knife leaves it (R120). -/
def closingRow (row : OrderRow) : OrderRow := { row with state := .closing }

/-- The sequencer as the knife leaves it (R121). -/
def closingSequencer (s : State) (st : StandId) (q : Sequencer) (stub : Option Nat) : Sequencer := { q with
  phase := .closing
  stub := stub
  cutConfirmed := false
  cutWait := some (s.now + cutWaitMs)
  retractEnded := (vget s.stands st).errors.lost
  retractWait := some (s.now + retractWaitMs) }

/-- The controller with BRAKE for the old arm and RETRACT queued (R121 step 4). -/
def brakedBus (b : Bus) (st : StandId) (q : Sequencer) : Bus :=
  queuedBus (match q.oldArm with
    | some arm => queuedBus b st ⟨.brake, some arm, none, none⟩
    | none => b) st ⟨.retract, none, none, none⟩

theorem queueBraking_eq (st : StandId) (q : Sequencer) (s : State) :
    queueBraking st q s = setBus s (brakedBus s.bus st q) := by
  unfold queueBraking brakedBus
  cases q.oldArm <;> rfl

theorem setBus_self (s : State) : setBus s s.bus = s := rfl

@[simp] theorem knifeChange_rows : (knifeChange st q row f c s).rows = s.rows := by simp [knifeChange]
@[simp] theorem knifeChange_bus : (knifeChange st q row f c s).bus = s.bus := by simp [knifeChange]
@[simp] theorem knifeChange_sequencers : (knifeChange st q row f c s).sequencers = s.sequencers := by
  simp [knifeChange]

theorem knifeChange_schedule : vget (knifeChange st q row f c s).schedules (lineOf s st) =
    (vget s.schedules (lineOf s st)).filter fun e => !(e.row == q.row) := by
  simp [knifeChange, removeEntry]

theorem knifeChange_keeps : Keeps s (knifeChange st q row f c s) :=
  removeEntry_keeps (runNew_keeps (expireOld_keeps (fireOutput_keeps (.refl s))))

/-- The knife of an order on a line none of whose other orders waits for placement: its entry's removal causes an
evaluation that changes nothing. -/
theorem fireKnife_eq (hq : vget s.sequencers st = some q) (hrow : vget s.rows q.row = some row)
    (hs : row.state = .pasting) (hf : row.fire = some f) (hc : row.commitment = some c)
    (hz : ∀ e ∈ vget s.schedules (lineOf s st), e.frozen = true) :
    fireKnife st s = setBus (setSequencer
        (raiseRow q.row st (setRow (knifeChange st q row f c s) q.row (some (closingRow row)))) st
        (some (closingSequencer s st q (stubAtKnife s st row f.pk))))
      (if (vget s.stands st).errors.lost then s.bus else brakedBus s.bus st q) := by
  have frozen : ∀ e ∈ vget (knifeChange st q row f c s).schedules (lineOf s st), e.frozen = true := by
    rw [knifeChange_schedule]
    exact fun e he => hz e (List.mem_filter.1 he).1
  have written : writeRowState q.row st .closing (knifeChange st q row f c s) =
      raiseRow q.row st (setRow (knifeChange st q row f c s) q.row (some (closingRow row))) := by
    simp [writeRowState, modRow, hrow, hs, OrderState.committed, closingRow]
  have fold : removeEntry (lineOf s st) q.row (runNew st row q.newArm q.cNew
      (expireOld row (stubAtKnife s st row f.pk) (fireOutput st .knife c.frozen.pulseWidth s))) =
      knifeChange st q row f c s := rfl
  have bus : ∀ x, (setSequencer (raiseRow q.row st (setRow (knifeChange st q row f c s) q.row
      (some (closingRow row)))) st x).bus = s.bus := fun x => by simp
  unfold fireKnife
  rw [hq]
  dsimp only
  rw [hrow]
  dsimp only
  rw [hf, hc]
  dsimp only
  rw [fold, evaluate_of_frozen frozen, ite_self, written, queueBraking_eq, bus]
  by_cases lost : (vget s.stands st).errors.lost = true
  · rw [if_pos lost, if_pos lost, ← bus, setBus_self]; rfl
  · rw [if_neg lost, if_neg lost]; rfl

/-! ## The records at the knife -/

variable {i j : SlotId} {old new : ReelRecord}

theorem reelOf_some {n : Nat} {r : ReelRecord} (h : reelOf s n = some r) :
    ∃ i, findReel s n = some i ∧ vget s.reels i = some r := Option.bind_eq_some_iff.1 h

theorem reelOf_eq {n : Nat} {r : ReelRecord} (h : findReel s n = some i) (hr : vget s.reels i = some r) :
    reelOf s n = some r := by simp [reelOf, h, hr]

/-- An expired record as the knife leaves it (R31). -/
def expiredRecord (r : ReelRecord) (stub : Option Nat) : ReelRecord :=
  { r with state := .expired, remaining := stub, learned := none }

theorem expireOld_eq (stub : Option Nat) (hi : findReel s row.expiring = some i)
    (hr : vget s.reels i = some old) (ht : old.tag = some row.tag) (hs : old.state = .running) :
    expireOld row stub s = setReel s i (some (expiredRecord old stub)) := by
  simp [expireOld, orderReel_eq hi hr ht, hr, hs, expiredRecord]

theorem runNew_eq {arm : Arm} {x : Option Nat} (hj : findReel s row.newReel = some j)
    (hr : vget s.reels j = some new) (ht : new.tag = some row.tag) (hs : new.state = .committed) :
    runNew st row arm x s =
      startTracker st row.newReel arm x (setReel s j (some (threadedRecord new))) := by
  simp [runNew, orderReel_eq hj hr ht, hr, hs, threadedRecord]

/-- The knife's change of two different reels that carry the order's tag (R31, R47). -/
theorem knifeChange_eq (hi : findReel s row.expiring = some i) (hold : vget s.reels i = some old)
    (hot : old.tag = some row.tag) (hos : old.state = .running) (hj : findReel s row.newReel = some j)
    (hnew : vget s.reels j = some new) (hnt : new.tag = some row.tag) (hns : new.state = .committed)
    (hne : j ≠ i) : knifeChange st q row f c s =
      removeEntry (lineOf s st) q.row (startTracker st row.newReel q.newArm q.cNew (setReel
        (setReel (fireOutput st .knife c.frozen.pulseWidth s) i
          (some (expiredRecord old (stubAtKnife s st row f.pk)))) j (some (threadedRecord new)))) := by
  have numbers : SameNumbers (fireOutput st .knife c.frozen.pulseWidth s)
      (setReel (fireOutput st .knife c.frozen.pulseWidth s) i
        (some (expiredRecord old (stubAtKnife s st row f.pk)))) := setReel_sameNumbers hold rfl
  rw [knifeChange, expireOld_eq _ (by exact hi) (by exact hold) hot hos,
    runNew_eq (j := j) (new := new) ((numbers.findReel_eq _).trans hj) (by
      rw [setReel_reels, vget_vset_ne _ _ _ _ hne]; exact hnew) hnt hns]

end Knife

/-- Settles O32: on a line with no other order to place the knife is one write to each part that it changes. -/
theorem knifeFires : Obligations.KnifeFires := by
  intro st s q row f c x old new hq hphase hfired hrow hs hf hc hat hne hold hot hos hnew hnt hns hx hxr hz
  obtain ⟨i, hi, hri⟩ := reelOf_some hold
  obtain ⟨j, hj, hrj⟩ := reelOf_some hnew
  have hji : j ≠ i := by
    rintro rfl
    exact hne ((findReel_reel hi hri).symm.trans (by
      rw [hri] at hrj; cases hrj; exact findReel_reel hj hri))
  have due : knifeDue s st = true := by
    simp [knifeDue, hq, hphase, hfired, fireOf, hrow, hf, (atOrAfter_iff _ _).2 hat]
  have stub : stubAtKnife s st row f.pk = extrapolated x f.pk := by
    simp [stubAtKnife, orderReel_eq hi hri hot, hx, hxr]
  have change := knifeChange_eq (st := st) (q := q) (f := f) (c := c) hi hri hot hos hj hrj hnt hns hji
  have fire := fireKnife_eq hq hrow hs hf hc hz
  have numbers : SameNumbers s (knifeChange st q row f c s) := by
    rw [change]
    have first := setReel_sameNumbers (s := fireOutput st .knife c.frozen.pulseWidth s) (i := i)
      (y := expiredRecord old (stubAtKnife s st row f.pk)) hri rfl
    have second := setReel_sameNumbers (s := setReel (fireOutput st .knife c.frozen.pulseWidth s) i
      (some (expiredRecord old (stubAtKnife s st row f.pk)))) (i := j) (x := new) (y := threadedRecord new)
      (by rw [setReel_reels, vget_vset_ne _ _ _ _ hji]; exact hrj) rfl
    exact first.trans second
  have hexec : exec (.knifePositionReport st) s = .next (arbitrate (fireKnife st s)) := by
    simp [exec, execKnifePositionReport, reportKnife, due]
  have reels : (arbitrate (fireKnife st s)).reels = (knifeChange st q row f c s).reels := by
    rw [fire]; simp
  have find : ∀ n, findReel (arbitrate (fireKnife st s)) n = findReel s n := fun n =>
    (SameNumbers.of_reels (s := knifeChange st q row f c s) reels).findReel_eq n |>.trans
      (numbers.findReel_eq n)
  refine ⟨_, hexec, ?_, ?_, ?_, ?_, ?_, ?_, fun hen => ?_, ?_, ?_, ?_⟩
  · refine reelOf_eq ((find _).trans hi) ?_
    rw [reels, change]
    simp [vget_vset, hji.symm, expiredRecord, stub, startTracker]
  · refine reelOf_eq ((find _).trans hj) ?_
    rw [reels, change]
    simp [threadedRecord, startTracker]
  · rw [fire, arbitrate_trackers]
    simp [change, startTracker]
  · rw [fire, arbitrate_sequencers]
    simp [closingSequencer, stub, cutWaitMs, retractWaitMs]
  · refine arbitrate_bus_congr ?_ ?_
    · rw [fire]; rfl
    · exact (fireKnife_keeps (.refl s)).now
  · rw [fire, arbitrate_rows]
    simp [closingRow]
  · refine flagSet_of_port (s := raiseRow q.row st (setRow (knifeChange st q row f c s) q.row
      (some (closingRow row)))) (by rw [fire, arbitrate_port, setBus_port, setSequencer_port])
      (flagSet_raiseRow ?_)
    rw [standParam, setRow_settings, knifeChange_keeps.settings]
    exact hen
  · rw [fire, arbitrate_outputs]
    simp [change, startTracker, fireOutput, firePulse]
    cases (vget s.outputs st).knife <;> rfl
  · rw [fire, arbitrate_schedules]
    intro e he
    simp only [setBus_schedules, setSequencer_schedules, raiseRow_schedules, setRow_schedules,
      knifeChange_schedule] at he
    simpa using (List.mem_filter.1 he).2
  · refine (arbitrate_keeps (fireKnife_keeps (.refl s))).onlyIn fun b hb hb' => ?_
    cases b
    case arms => simp [sameIn]
    case stands => simp [sameIn]
    case verifies =>
      simp only [sameIn, arbitrate_verifies, fire]
      simp [change, startTracker]
    all_goals simp at hb hb'

end Sys2Proof.Machine
end

section
/-! The end of a speed window (R3, R4, R58, R61 to R63, R77, R112, R174). -/

namespace Sys2Proof.Machine

open Sys2Proof

/-! ## Folds over the stands and rows of a line -/

/-- What every element of a fold keeps, the fold keeps. -/
theorem foldl_inv {α β : Type} {P : β → Prop} (f : β → α → β) (xs : List α) {b : β}
    (hf : ∀ u, ∀ x ∈ xs, P u → P (f u x)) (h : P b) : P (xs.foldl f b) := by
  induction xs generalizing b with
  | nil => exact h
  | cons x xs ih =>
    exact ih (fun u y hy => hf u y (List.mem_cons_of_mem _ hy)) (hf b x (List.mem_cons_self ..) h)

/-- A fold over a list without repeats, cut at one of its elements. -/
theorem foldl_at {α β : Type} (f : β → α → β) {xs : List α} {a : α} (ha : a ∈ xs) (hn : xs.Nodup) (b : β) :
    ∃ ys zs, xs = ys ++ a :: zs ∧ a ∉ ys ∧ a ∉ zs ∧ xs.foldl f b = zs.foldl f (f (ys.foldl f b) a) := by
  obtain ⟨ys, zs, rfl⟩ := List.append_of_mem ha
  rw [List.nodup_append] at hn
  obtain ⟨-, hcons, hdis⟩ := hn
  refine ⟨ys, zs, rfl, fun h => hdis a h a (List.mem_cons_self ..) rfl, (List.nodup_cons.1 hcons).1, ?_⟩
  rw [List.foldl_append, List.foldl_cons]

theorem indices_nodup (n : Nat) : (indices n).Nodup := List.nodup_finRange n

theorem mem_standsOf {s : State} {l : LineId} {st : StandId} : st ∈ standsOf s l ↔ lineOf s st = l := by
  simp [standsOf]

theorem standsOf_nodup (s : State) (l : LineId) : (standsOf s l).Nodup := (indices_nodup 8).filter _

/-! ## A record after a change of another or the same number -/

section Reels

variable {s : State} {f : ReelRecord → ReelRecord}

theorem modReel_sameNumbers (hf : ∀ r, (f r).reel = r.reel) (n : Nat) (s : State) :
    SameNumbers s (modReel n f s) := by
  unfold modReel
  split
  · exact setReel_map_sameNumbers _ hf
  · exact .refl s

theorem reelOf_modReel_self (hf : ∀ r, (f r).reel = r.reel) (n : Nat) :
    reelOf (modReel n f s) n = (reelOf s n).map f := by
  unfold reelOf
  rw [(modReel_sameNumbers hf n s).findReel_eq]
  cases h : findReel s n with
  | none => rfl
  | some i => simp [modReel, h]

theorem reelOf_modReel_ne (hf : ∀ r, (f r).reel = r.reel) {m n : Nat} (hne : m ≠ n) :
    reelOf (modReel m f s) n = reelOf s n := by
  unfold reelOf
  rw [(modReel_sameNumbers hf m s).findReel_eq]
  cases h : findReel s n with
  | none => rfl
  | some i =>
    unfold modReel
    split
    · next j hj =>
      have : i ≠ j := by
        rintro rfl
        obtain ⟨x, hx, hxn⟩ := findReel_some h
        obtain ⟨y, hy, hym⟩ := findReel_some hj
        rw [hx] at hy
        cases hy
        exact hne (hym.symm.trans hxn)
      simp [vget_vset_ne, this]
    · rfl

/-- The record of a number, if there is one, holds no learned decrement. -/
def NoLearned (n : Nat) (s : State) : Prop := (reelOf s n).bind (·.learned) = none

theorem noLearned_of_reels {t : State} {n : Nat} (h : NoLearned n s) (ht : t.reels = s.reels) :
    NoLearned n t := by
  unfold NoLearned reelOf at *
  rw [(SameNumbers.of_reels ht).findReel_eq, ht]
  exact h

/-- A change that writes no learned decrement into a record leaves none. -/
theorem modReel_noLearned (hf : ∀ r, (f r).reel = r.reel)
    (hl : ∀ r, r.learned = none → (f r).learned = none) {m n : Nat} (h : NoLearned n s) :
    NoLearned n (modReel m f s) := by
  unfold NoLearned at *
  by_cases e : m = n
  · subst e
    rw [reelOf_modReel_self hf]
    cases hr : reelOf s m with
    | none => rfl
    | some r => exact hl r (by simpa [hr] using h)
  · rw [reelOf_modReel_ne hf e]; exact h

end Reels

/-! ## The tracker at a window end -/

section Trackers

variable {s : State} {st st' : StandId} {x : Tracker} {v floor : Nat}

@[simp] theorem runoutCheck_rows (st : StandId) (s : State) : (runoutCheck st s).rows = s.rows := by
  unfold runoutCheck; dsimp only; (repeat' split) <;> simp
@[simp] theorem runoutCheck_sequencers (st : StandId) (s : State) :
    (runoutCheck st s).sequencers = s.sequencers := by
  unfold runoutCheck; dsimp only; (repeat' split) <;> simp
@[simp] theorem holdTest_rows (st : StandId) (v n : Nat) (s : State) : (holdTest st v n s).rows = s.rows := by
  unfold holdTest; (repeat' split) <;> simp
@[simp] theorem holdTest_sequencers (st : StandId) (v n : Nat) (s : State) :
    (holdTest st v n s).sequencers = s.sequencers := by
  unfold holdTest; (repeat' split) <;> simp

/-- A tracker at a window end, but for the RUNOUT check (R61 to R63). -/
def afterHoldTest (x : Tracker) (v floor : Nat) : Tracker :=
  match x.state with
  | .fault => x
  | .hold => if v < floor then x else resumedTracker x
  | .warming | .tracking | .learned => if v < floor then heldTracker x else x

theorem holdTest_self (h : vget s.trackers st = some x) :
    vget (holdTest st v floor s).trackers st = some (afterHoldTest x v floor) := by
  simp only [holdTest, h, afterHoldTest]
  cases x.state with
  | fault => exact h
  | hold | warming | tracking | learned => dsimp only; split <;> simp [h]

theorem holdTest_ne (hne : st' ≠ st) :
    vget (holdTest st v floor s).trackers st' = vget s.trackers st' := by
  unfold holdTest; (repeat' split) <;> simp [vget_vset_ne, hne]

/-- HOLD keeps the last sample's mark and the runout held, so the extrapolated length is the same. -/
theorem extrapolated_afterHoldTest (x : Tracker) (v floor : Nat) (p : Pos) :
    extrapolated (afterHoldTest x v floor) p = extrapolated x p := by
  unfold afterHoldTest
  cases x.state with
  | fault => rfl
  | hold | warming | tracking | learned => dsimp only; split <;> rfl

/-- The RUNOUT check holds exactly whether the reel has run out at the line position (R58). -/
theorem runoutCheck_self (h : vget s.trackers st = some x) : vget (runoutCheck st s).trackers st =
    some { x with runoutHeld := decide (extrapolated x (standPos s st) = some 0) } := by
  have held : ∀ e : (x.mark.isSome && !x.runoutHeld && extrapolated x (standPos s st) == some 0) = false,
      decide (extrapolated x (standPos s st) = some 0) = x.runoutHeld := by
    intro e
    unfold extrapolated at e ⊢
    cases hr : x.runoutHeld with
    | true => simp
    | false => cases hm : x.mark <;> simp_all
  simp only [runoutCheck, h]
  split
  · next e =>
    have out : extrapolated x (standPos s st) = some 0 := by simp_all
    split <;> simp [out]
  · next e =>
    rw [h, held (by simpa using e)]

theorem runoutCheck_ne (hne : st' ≠ st) : vget (runoutCheck st s).trackers st' = vget s.trackers st' := by
  unfold runoutCheck; dsimp only; (repeat' split) <;> simp [vget_vset_ne, hne]

theorem standPos_of_keeps {t : State} (k : Keeps s t) (st : StandId) : standPos t st = standPos s st := by
  simp only [standPos, position, k.lineOf_eq, k.lines]

theorem trackerWindowEnd_self (h : vget s.trackers st = some x) :
    vget (trackerWindowEnd st v floor s).trackers st = some { afterHoldTest x v floor with
      runoutHeld := decide (extrapolated x (standPos s st) = some 0) } := by
  rw [trackerWindowEnd, runoutCheck_self (holdTest_self h), extrapolated_afterHoldTest,
    standPos_of_keeps (holdTest_keeps (.refl s))]

theorem trackerWindowEnd_ne (hne : st' ≠ st) :
    vget (trackerWindowEnd st v floor s).trackers st' = vget s.trackers st' := by
  rw [trackerWindowEnd, runoutCheck_ne hne, holdTest_ne hne]

/-- A record as the RUNOUT check leaves it (R58). -/
def ranOutRecord (r : ReelRecord) : ReelRecord := { r with runout := true, remaining := some 0 }

/-- A record as HOLD leaves it that took its tracker from LEARNED (R61). -/
def unlearnedRecord (r : ReelRecord) : ReelRecord := { r with learned := none }

theorem ranOutRecord_noLearned {m n : Nat} {u : State} (h : NoLearned n u) :
    NoLearned n (modReel m ranOutRecord u) :=
  modReel_noLearned (f := ranOutRecord) (fun _ => rfl) (fun _ hl => hl) h

theorem unlearnedRecord_noLearned {m n : Nat} {u : State} (h : NoLearned n u) :
    NoLearned n (modReel m unlearnedRecord u) :=
  modReel_noLearned (f := unlearnedRecord) (fun _ => rfl) (fun _ _ => rfl) h

theorem runoutCheck_noLearned {n : Nat} (h : NoLearned n s) : NoLearned n (runoutCheck st s) := by
  unfold runoutCheck
  split
  · exact h
  · next x _ =>
    have run : NoLearned n (modReel x.reel ranOutRecord
        (setTracker s st (some { x with runoutHeld := true }))) :=
      ranOutRecord_noLearned (noLearned_of_reels h rfl)
    split
    · dsimp only
      split
      · exact run
      · exact noLearned_of_reels run (raiseStand_reels ..)
    · exact h

theorem holdTest_noLearned {n : Nat} (h : NoLearned n s) : NoLearned n (holdTest st v floor s) := by
  unfold holdTest
  split
  · exact h
  · split
    · exact h
    · split
      · exact h
      · exact noLearned_of_reels h rfl
    · split
      · exact noLearned_of_reels h rfl
      · exact h
    · split
      · exact noLearned_of_reels h rfl
      · exact h
    · split
      · refine unlearnedRecord_noLearned ?_
        exact noLearned_of_reels h rfl
      · exact h

theorem trackerWindowEnd_noLearned {n : Nat} (h : NoLearned n s) :
    NoLearned n (trackerWindowEnd st v floor s) := runoutCheck_noLearned (holdTest_noLearned h)

/-- A LEARNED tracker that enters HOLD takes the learned decrement from its record (R61). -/
theorem trackerWindowEnd_unlearns (h : vget s.trackers st = some x) (hx : x.state = .learned)
    (hv : v < floor) : NoLearned x.reel (trackerWindowEnd st v floor s) := by
  refine runoutCheck_noLearned ?_
  simp only [holdTest, h, hx, if_pos hv]
  change NoLearned x.reel (modReel x.reel unlearnedRecord (setTracker s st (some (heldTracker x))))
  unfold NoLearned
  rw [reelOf_modReel_self (f := unlearnedRecord) fun _ => rfl]
  cases reelOf (setTracker s st (some (heldTracker x))) x.reel <;> rfl

/-- The window end at the trackers of some stands. -/
def trackersEnd (sts : List StandId) (v floor : Nat) (s : State) : State :=
  sts.foldl (fun u st => trackerWindowEnd st v floor u) s

theorem trackersEnd_keeps (sts : List StandId) (v floor : Nat) (s : State) :
    Keeps s (trackersEnd sts v floor s) := foldl_keeps _ (fun _ _ => trackerWindowEnd_keeps) _ (.refl s)

theorem trackersEnd_same {β : Type} (part : State → β)
    (hf : ∀ st u, part (trackerWindowEnd st v floor u) = part u) (sts : List StandId) (s : State) :
    part (trackersEnd sts v floor s) = part s := foldl_same part _ (fun u st => hf st u) sts s

theorem trackersEnd_ne {sts : List StandId} (h : st ∉ sts) :
    vget (trackersEnd sts v floor s).trackers st = vget s.trackers st := by
  refine foldl_inv (P := fun u : State => vget u.trackers st = vget s.trackers st) _ sts (fun u y hy hu => ?_) rfl
  exact (trackerWindowEnd_ne fun e => h (by rw [e]; exact hy)).trans hu

/-- Each tracker of the line takes the window end once (R58, R61, R62). -/
theorem trackersEnd_self {sts : List StandId} (hm : st ∈ sts) (hn : sts.Nodup)
    (h : vget s.trackers st = some x) : vget (trackersEnd sts v floor s).trackers st =
      some { afterHoldTest x v floor with
        runoutHeld := decide (extrapolated x (standPos s st) = some 0) } := by
  obtain ⟨ys, zs, -, hys, hzs, e⟩ := foldl_at (fun u st => trackerWindowEnd st v floor u) hm hn s
  rw [trackersEnd, e]
  change vget (trackersEnd zs v floor (trackerWindowEnd st v floor (trackersEnd ys v floor s))).trackers st = _
  rw [trackersEnd_ne hzs, trackerWindowEnd_self ((trackersEnd_ne hys).trans h),
    standPos_of_keeps (trackersEnd_keeps ..)]

theorem trackersEnd_unlearns {sts : List StandId} (hm : st ∈ sts) (hn : sts.Nodup)
    (h : vget s.trackers st = some x) (hx : x.state = .learned) (hv : v < floor) :
    NoLearned x.reel (trackersEnd sts v floor s) := by
  obtain ⟨ys, zs, -, hys, -, e⟩ := foldl_at (fun u st => trackerWindowEnd st v floor u) hm hn s
  rw [trackersEnd, e]
  refine foldl_inv _ zs (fun u y _ hu => trackerWindowEnd_noLearned hu) ?_
  exact trackerWindowEnd_unlearns (s := trackersEnd ys v floor s) ((trackersEnd_ne hys).trans h) hx hv

end Trackers

end Sys2Proof.Machine
end

section
/-! The waiting rows and the sequencers at the end of a speed window (R77, R112), and the window end itself. -/

namespace Sys2Proof.Machine

open Sys2Proof

/-! ## The commit test made again (R76, R77) -/

section Retest

variable {s : State} {r : RowId} {row : OrderRow} {l : LineId}

/-- The commit test with go set, at or above the splice floor, commits (R76, R78). -/
theorem commitTest_commits {p : Placement} {a : Nat} (h : vget s.rows r = some row)
    (hw : row.state.waiting = true) (hp : row.place = some p) (ha : row.distance = some a)
    (hg : row.go = true) (hf : belowSpliceFloor s (lineOf s row.stand) = false) :
    commitTest r s =
      commitRow r row p a (atOrAfter (position s (lineOf s row.stand)) (back p.plate a)) s := by
  simp [commitTest, h, hw, hp, ha, hg, hf]

/-- The commit test with go set, below the splice floor and before the latest commit point, leaves the row ARMED
and past with SPEED_LOW (R76). -/
theorem commitTest_speedLow {p : Placement} {a : Nat} (h : vget s.rows r = some row)
    (hw : row.state.waiting = true) (hp : row.place = some p) (ha : row.distance = some a)
    (hg : row.go = true) (hf : belowSpliceFloor s (lineOf s row.stand) = true)
    (hl : atOrAfter (position s (lineOf s row.stand)) (back p.plate a) = false) :
    commitTest r s =
      (setRow s r (some { row with state := .armed, past := true, speedLow := true }), 0) := by
  simp [commitTest, h, hw, hp, ha, hg, hf, hl]

theorem commitRow_rows (row : OrderRow) (p : Placement) (a : Nat) (b : Bool) (s : State) :
    (commitRow r row p a b s).1.rows = vset s.rows r (some { row with
      state := .accelerating, past := false, late := b, speedLow := false
      commitment := some ⟨position s (lineOf s row.stand), frozenSettings s row.stand,
        matchDeadline p.plate (position s (lineOf s row.stand)) (newReelOutside s row) a, 0⟩ }) := by
  simp [commitRow]

theorem commitRow_sequencers_ne {st : StandId} (row : OrderRow) (p : Placement) (a : Nat) (b : Bool) (s : State)
    (h : st ≠ row.stand) : vget (commitRow r row p a b s).1.sequencers st = vget s.sequencers st := by
  simp [commitRow, vget_vset_ne, h]

theorem EvalClosed.retestRows {P : State → Prop} (hP : EvalClosed P) (l : LineId) (h : P s) :
    P (retestRows l s) := by
  refine foldl_inv _ _ (fun u r _ hu => ?_) h
  split
  · exact hP.testOrder r hu
  · exact hu

/-- What changes waiting rows alone leaves a row that does not wait. -/
theorem row_evalClosed (hw : row.state.waiting = false) :
    EvalClosed fun u => vget u.rows r = some row where
  schedule _ _ _ h := h
  flag u e n h := by rw [raiseBit_rows]; exact h
  row u k x y hx hxw _ _ h := by
    have : r ≠ k := by rintro rfl; rw [hx] at h; cases h; simp [hxw] at hw
    rw [setRow_rows_ne _ this]; exact h
  close u k x o why d b hx hxw h := by
    have : r ≠ k := by rintro rfl; rw [hx] at h; cases h; simp [hxw] at hw
    rw [closeRow_rows_ne _ _ _ _ this]; exact h
  commit u k x p n b hx hxw _ h := by
    have : r ≠ k := by rintro rfl; rw [hx] at h; cases h; simp [hxw] at hw
    rw [commitRow_rows_ne _ _ _ _ this]; exact h

theorem belowSpliceFloor_congr {t : State} (hl : t.lines = s.lines) (hs : t.settings = s.settings)
    (l : LineId) : belowSpliceFloor t l = belowSpliceFloor s l := by
  simp only [belowSpliceFloor, hl, hs]

theorem lineOf_congr {t : State} (hs : t.settings = s.settings) (st : StandId) :
    lineOf t st = lineOf s st := by simp only [lineOf, standParam, hs]

/-- The lines and the settings are those of a state, and the sequencer of a stand is a given one. -/
def SequencerStands (s : State) (st : StandId) (x : Option Sequencer) (u : State) : Prop :=
  u.lines = s.lines ∧ u.settings = s.settings ∧ vget u.sequencers st = x

/-- Below the splice floor of a stand's line nothing commits on the line, so an evaluation leaves the stand's
sequencer (R76). -/
theorem sequencer_evalClosed {st : StandId} {x : Option Sequencer}
    (hb : belowSpliceFloor s (lineOf s st) = true) : EvalClosed (SequencerStands s st x) where
  schedule _ _ _ h := h
  flag u e n h := by
    have k := raiseBit_keeps (e := e) (bit := n) (.refl u)
    exact ⟨k.lines.trans h.1, k.settings.trans h.2.1, by rw [raiseBit_sequencers]; exact h.2.2⟩
  row _ _ _ _ _ _ _ _ h := h
  close u k y o why d b hy hw h := by
    have kept := closeRow_keeps (r := k) (o := o) (why := why) (d := d) (b := b) (.refl u)
    exact ⟨kept.lines.trans h.1, kept.settings.trans h.2.1, by
      rw [closeRow_waiting_sequencers o why d b hy hw]; exact h.2.2⟩
  commit u k y p n b hy hw hf h := by
    obtain ⟨hl, hs, hq⟩ := h
    have kept := commitRow_keeps (r := k) (p := p) (n := n) (b := b) (.refl u) hy (waiting_isOpen hw)
    have ne : st ≠ y.stand := by
      rintro rfl
      rw [belowSpliceFloor_congr hl hs, lineOf_congr hs, hb] at hf
      cases hf
    exact ⟨kept.lines.trans hl, kept.settings.trans hs, by rw [commitRow_sequencers_ne _ _ _ _ _ ne]; exact hq⟩

theorem pastOnLine_congr {t : State} (hs : t.settings = s.settings) (hr : vget t.rows r = vget s.rows r) :
    pastOnLine t l r = pastOnLine s l r := by
  simp only [pastOnLine, hr, lineOf_congr hs]

/-- With no row past its commit point the commit test is not made again. -/
theorem retestRows_none (h : ∀ r, pastOnLine s l r = false) : retestRows l s = s :=
  foldl_eq_self _ _ s fun r _ => by simp [h r]

/-- With one row past its commit point the test is made for it, and then for the rows after it that this made
past. -/
theorem retestRows_one (hr : pastOnLine s l r = true) (h : ∀ r', r' ≠ r → pastOnLine s l r' = false) :
    ∃ rs : List RowId, r ∉ rs ∧ retestRows l s =
      rs.foldl (fun u k => if pastOnLine u l k then testOrder k u else u) (testOrder r s) := by
  obtain ⟨ys, zs, -, hys, hzs, e⟩ := foldl_at
    (fun u k => if pastOnLine u l k then testOrder k u else u) (mem_indices r) (indices_nodup 16) s
  refine ⟨zs, hzs, ?_⟩
  rw [retestRows, e, foldl_eq_self _ ys s fun k hk => by simp [h k fun hc => hys (hc ▸ hk)], if_pos hr]

end Retest

/-! ## The sequencers at a window end (R112) -/

section Sequencers

variable {s : State} {st : StandId} {l : LineId}

theorem sequencerWindowEnd_above (h : belowSpliceFloor s (lineOf s st) = false) :
    sequencerWindowEnd st s = s := by
  unfold sequencerWindowEnd
  split
  · rfl
  · split <;> simp [h]

theorem sequencerWindowEnd_none (h : vget s.sequencers st = none) : sequencerWindowEnd st s = s := by
  simp [sequencerWindowEnd, h]

theorem sequencerWindowEnd_low {q : Sequencer} (h : vget s.sequencers st = some q)
    (hp : q.phase = .accelerating ∨ q.phase = .matched)
    (hb : belowSpliceFloor s (lineOf s st) = true) :
    sequencerWindowEnd st s = closeOrder q.row .failed .speedLow false s := by
  rcases hp with hp | hp <;> simp [sequencerWindowEnd, h, hp, hb, sequencerClose]

/-- The window end at a sequencer does nothing, or closes its row FAILED(SPEED_LOW). -/
theorem sequencerWindowEnd_cases (st : StandId) (s : State) : sequencerWindowEnd st s = s ∨
    ∃ q : Sequencer, sequencerWindowEnd st s = closeOrder q.row .failed .speedLow false s := by
  unfold sequencerWindowEnd
  split
  · exact .inl rfl
  · next q _ =>
    split
    · split
      · exact .inr ⟨q, rfl⟩
      · exact .inl rfl
    · split
      · exact .inr ⟨q, rfl⟩
      · exact .inl rfl
    · exact .inl rfl
    · exact .inl rfl

/-- The window end at the sequencers of some stands. -/
def sequencersEnd (sts : List StandId) (s : State) : State :=
  sts.foldl (fun u st => sequencerWindowEnd st u) s

theorem sequencersEnd_keeps (sts : List StandId) (s : State) : Keeps s (sequencersEnd sts s) :=
  foldl_keeps _ (fun _ _ => sequencerWindowEnd_keeps) _ (.refl s)

theorem sequencersEnd_same {β : Type} (part : State → β)
    (hf : ∀ st u, part (sequencerWindowEnd st u) = part u) (sts : List StandId) (s : State) :
    part (sequencersEnd sts s) = part s := foldl_same part _ (fun u st => hf st u) sts s

/-- An order that a window end below the splice floor has closed: its sequencer IDLE, its row FAILED(SPEED_LOW)
(R112). -/
def LowClosed (st : StandId) (q : Sequencer) (row : OrderRow) (u : State) : Prop :=
  vget u.sequencers st = none ∧
    vget u.rows q.row = some (closedRow row .failed (some .speedLow) none)

/-- An order that such a window end has not met yet, or has closed. -/
def LowOrder (st : StandId) (q : Sequencer) (row : OrderRow) (u : State) : Prop :=
  (vget u.sequencers st = some q ∧ vget u.rows q.row = some row) ∨ LowClosed st q row u

variable {q : Sequencer} {row : OrderRow}

/-- A row open after what keeps the rows was an open order of its stand before. -/
theorem open_before {u : State} (k : Keeps s u) {r : RowId} {y : OrderRow} (hy : vget u.rows r = some y)
    (ho : y.state.isOpen = true) :
    ∃ x, vget s.rows r = some x ∧ x.stand = y.stand ∧ x.state.isOpen = true := by
  have kept := k.rows r
  cases hx : vget s.rows r with
  | none => rw [hx, hy] at kept; simp [RowKept] at kept
  | some x =>
    rw [hx, hy] at kept
    obtain ⟨-, hs, -, -, -, hclosed⟩ := kept
    refine ⟨x, rfl, hs.symm, ?_⟩
    cases e : x.state.isOpen with
    | true => rfl
    | false => rw [hclosed e, e] at ho; cases ho

/-- No step opens a second order on a stand (R70). -/
theorem oneOpenOrder_of_keeps {u : State} (k : Keeps s u) (h : OneOpenOrder s) : OneOpenOrder u := by
  intro i j x y hx hy hst hxo hyo
  obtain ⟨x', hx', hsx, hox⟩ := open_before k hx hxo
  obtain ⟨y', hy', hsy, hoy⟩ := open_before k hy hyo
  exact h i j x' y' hx' hy' (by rw [hsx, hsy, hst]) hox hoy

/-- Below the splice floor the evaluations that a close causes leave the sequencer of a stand of the line. -/
theorem closeOrder_sequencer {r : RowId} {x : Option Sequencer}
    (hb : belowSpliceFloor s (lineOf s st) = true)
    (hx : vget (closeRow r .failed (some .speedLow) none false s).1.sequencers st = x) :
    vget (closeOrder r .failed .speedLow false s).sequencers st = x := by
  have kept := closeRow_keeps (r := r) (o := .failed) (why := some .speedLow) (d := none) (b := false) (.refl s)
  exact ((sequencer_evalClosed hb).settle _ _ ⟨kept.lines, kept.settings, hx⟩).2.2

/-- What another close makes of an order that is closed already: nothing. -/
theorem closeOrder_lowClosed (hb : belowSpliceFloor s (lineOf s st) = true) (h : LowClosed st q row s)
    (r : RowId) : LowClosed st q row (closeOrder r .failed .speedLow false s) := by
  obtain ⟨hq, hr⟩ := h
  cases e : vget s.rows r with
  | none => simpa [closeOrder, closeRow_none _ _ _ _ e] using ⟨hq, hr⟩
  | some y =>
    cases hy : y.state.isOpen with
    | false => simpa [closeOrder, closeRow_not_open _ _ _ _ e hy] using ⟨hq, hr⟩
    | true =>
      have ne : q.row ≠ r := by
        rintro rfl
        rw [hr] at e
        cases e
        simp [closedRow, OrderState.isOpen] at hy
      refine ⟨closeOrder_sequencer hb ?_, settle_rows (by rw [closeRow_rows_ne _ _ _ _ ne]; exact hr) rfl⟩
      rw [closeRow_sequencers _ _ _ _ e hy, apply_ite (vget · st), hq, vget_vset, hq]; simp

/-- The close FAILED(SPEED_LOW) of a committed order's own row (R112). -/
theorem closeOrder_own (hb : belowSpliceFloor s (lineOf s st) = true) (hr : vget s.rows q.row = some row)
    (hc : row.state = .accelerating ∨ row.state = .matched) (hst : row.stand = st) :
    LowClosed st q row (closeOrder q.row .failed .speedLow false s) := by
  have ho : row.state.isOpen = true := by rcases hc with e | e <;> simp [e, OrderState.isOpen]
  have hw : row.state.waiting = false := by rcases hc with e | e <;> simp [e, OrderState.waiting]
  refine ⟨closeOrder_sequencer hb ?_, closeOrder_rows hr ho rfl⟩
  simp [closeRow_sequencers _ _ _ _ hr ho, hw, hst]

/-- A close FAILED(SPEED_LOW) of an open order's own row closes it, and of any other row leaves it, since its
stand has no other open order (R70). -/
theorem closeOrder_lowOrder (hb : belowSpliceFloor s (lineOf s st) = true)
    (hq : vget s.sequencers st = some q) (hr : vget s.rows q.row = some row)
    (hc : row.state = .accelerating ∨ row.state = .matched) (hst : row.stand = st)
    (hone : ∀ r y, vget s.rows r = some y → y.state.isOpen = true → y.stand = st → r = q.row)
    (r : RowId) : LowOrder st q row (closeOrder r .failed .speedLow false s) := by
  have hw : row.state.waiting = false := by rcases hc with e | e <;> simp [e, OrderState.waiting]
  cases e : vget s.rows r with
  | none => exact .inl (by simpa [closeOrder, closeRow_none _ _ _ _ e] using ⟨hq, hr⟩)
  | some y =>
    cases hy : y.state.isOpen with
    | false => exact .inl (by simpa [closeOrder, closeRow_not_open _ _ _ _ e hy] using ⟨hq, hr⟩)
    | true =>
      by_cases hrq : r = q.row
      · subst hrq
        exact .inr (closeOrder_own hb hr hc hst)
      · have ne : st ≠ y.stand := fun hs => hrq (hone r y e hy hs.symm)
        refine .inl ⟨closeOrder_sequencer hb ?_,
          settle_rows (by rw [closeRow_rows_ne _ _ _ _ (Ne.symm hrq)]; exact hr) hw⟩
        rw [closeRow_sequencers _ _ _ _ e hy]
        split
        · exact hq
        · rw [vget_vset_ne _ _ _ _ ne]; exact hq

/-- Below the splice floor the window end closes an ACCELERATING or MATCHED order (R112). -/
theorem sequencersEnd_low {sts : List StandId} (hm : st ∈ sts) (hn : sts.Nodup) (hone : OneOpenOrder s)
    (hq : vget s.sequencers st = some q) (hp : q.phase = .accelerating ∨ q.phase = .matched)
    (hrow : vget s.rows q.row = some row) (hst : row.stand = st)
    (hc : row.state = .accelerating ∨ row.state = .matched)
    (hb : belowSpliceFloor s (lineOf s st) = true) : LowClosed st q row (sequencersEnd sts s) := by
  have ho : row.state.isOpen = true := by rcases hc with e | e <;> simp [e, OrderState.isOpen]
  have below : ∀ u, Keeps s u → belowSpliceFloor u (lineOf u st) = true := fun u k => by
    rw [belowSpliceFloor_congr k.lines k.settings, k.lineOf_eq]; exact hb
  have closed : ∀ u y, Keeps s u → LowClosed st q row u →
      Keeps s (sequencerWindowEnd y u) ∧ LowClosed st q row (sequencerWindowEnd y u) := by
    intro u y k h
    refine ⟨sequencerWindowEnd_keeps k, ?_⟩
    rcases sequencerWindowEnd_cases y u with e | ⟨q', e⟩
    · rw [e]; exact h
    · rw [e]; exact closeOrder_lowClosed (below u k) h _
  have each : ∀ u y, Keeps s u → LowOrder st q row u →
      Keeps s (sequencerWindowEnd y u) ∧ LowOrder st q row (sequencerWindowEnd y u) := by
    rintro u y k (⟨hs, hr⟩ | h)
    · refine ⟨sequencerWindowEnd_keeps k, ?_⟩
      rcases sequencerWindowEnd_cases y u with e | ⟨q', e⟩
      · rw [e]; exact .inl ⟨hs, hr⟩
      · rw [e]
        exact closeOrder_lowOrder (below u k) hs hr hc hst
          (fun r y hy hyo hys =>
            oneOpenOrder_of_keeps k hone r q.row y row hy hr (hys.trans hst.symm) hyo ho) _
    · exact (closed u y k h).imp_right .inr
  obtain ⟨ys, zs, -, -, -, e⟩ := foldl_at (fun u st => sequencerWindowEnd st u) hm hn s
  rw [sequencersEnd, e]
  obtain ⟨k, before⟩ := foldl_inv (P := fun u => Keeps s u ∧ LowOrder st q row u)
    (fun u st => sequencerWindowEnd st u) ys (fun u y _ hu => each u y hu.1 hu.2) ⟨.refl s, .inl ⟨hq, hrow⟩⟩
  have met : LowClosed st q row (sequencerWindowEnd st (ys.foldl (fun u st => sequencerWindowEnd st u) s)) := by
    rcases before with ⟨hs, hr⟩ | h
    · rw [sequencerWindowEnd_low hs hp (below _ k)]
      exact closeOrder_own (below _ k) hr hc hst
    · exact (closed _ st k h).2
  exact (foldl_inv (P := fun u => Keeps s u ∧ LowClosed st q row u)
    (fun u st => sequencerWindowEnd st u) zs (fun u y _ hu => closed u y hu.1 hu.2)
    ⟨sequencerWindowEnd_keeps k, met⟩).2

end Sequencers

/-! ## The window end -/

/-- The state that a window end hands to the line's stands: the counter's window ended, the line's flag, and the
floors last written in force (R3, R174). -/
def windowState (l : LineId) (s : State) : State :=
  let c := vget s.lines l
  let s1 := setLine (reachTime c.windowEnd s) l (endWindow c)
  bringFloors l (if (endWindow c).overspeed && !c.overspeed then raiseLine l s1 else s1)

section WindowState

variable (l : LineId) (s : State)

theorem windowState_lines : (windowState l s).lines = vset s.lines l (endWindow (vget s.lines l)) := by
  have flag : ∀ u : State, (raiseLine l u).lines = u.lines := fun u => (raiseLine_keeps (.refl u)).lines
  unfold windowState; dsimp only; split <;> simp [bringFloors, flag, reachTime]

theorem windowState_settings : (windowState l s).settings = { s.settings with
    floors := vset s.settings.floors l ⟨lineParam s l 1, lineParam s l 2⟩ } := by
  have flag : ∀ u : State, (raiseLine l u).settings = u.settings := fun u =>
    (raiseLine_keeps (.refl u)).settings
  unfold windowState; dsimp only; split <;> simp [bringFloors, flag, lineParam, reachTime]

theorem windowState_now : (windowState l s).now = max s.now (vget s.lines l).windowEnd := by
  have flag : ∀ u : State, (raiseLine l u).now = u.now := fun u => (raiseLine_keeps (.refl u)).now
  unfold windowState; dsimp only; split <;> simp [bringFloors, flag, reachTime]

theorem windowState_onlyIn : OnlyIn [.now, .lines, .settings, .port] s (windowState l s) := by
  have flag : ∀ u : State, OnlyIn [.port] u (raiseLine l u) := fun u b hb => by
    unfold raiseLine raiseBit
    split
    · cases b
      case port => simp at hb
      all_goals rfl
    · cases b <;> rfl
  have line : OnlyIn [.now, .lines, .settings, .port] s
      (setLine (reachTime (vget s.lines l).windowEnd s) l (endWindow (vget s.lines l))) := fun b hb => by
    cases b
    case now | lines | settings | port => simp at hb
    all_goals rfl
  have floors : ∀ u : State, OnlyIn [.now, .lines, .settings, .port] u (bringFloors l u) := fun u b hb => by
    cases b
    case now | lines | settings | port => simp at hb
    all_goals rfl
  unfold windowState
  dsimp only
  split
  · exact (line.trans ((flag _).mono (by simp))).trans (floors _)
  · exact line.trans (floors _)

theorem windowState_rows : (windowState l s).rows = s.rows := windowState_onlyIn l s .rows (by simp)

theorem windowState_trackers : (windowState l s).trackers = s.trackers :=
  windowState_onlyIn l s .trackers (by simp)

theorem windowState_sequencers : (windowState l s).sequencers = s.sequencers :=
  windowState_onlyIn l s .sequencers (by simp)

theorem windowState_lineOf (st : StandId) : lineOf (windowState l s) st = lineOf s st := by
  simp only [lineOf, standParam, windowState_settings]

theorem windowState_standsOf : standsOf (windowState l s) l = standsOf s l := by
  simp only [standsOf, windowState_lineOf]

theorem windowState_standPos (st : StandId) : standPos (windowState l s) st = standPos s st := by
  simp only [standPos, position, windowState_lineOf, windowState_lines, vget_vset]
  split
  · next e => rw [e]; rfl
  · rfl

theorem windowState_pastOnLine (r : RowId) : pastOnLine (windowState l s) l r = pastOnLine s l r := by
  simp only [pastOnLine, windowState_rows, windowState_lineOf]

/-- Whether the speed of the window that has ended lies below the floor now in force (R112). -/
theorem windowState_below {st : StandId} (h : lineOf s st = l) :
    belowSpliceFloor (windowState l s) (lineOf (windowState l s) st) =
      decide (min (100 * (vget s.lines l).windowCount) 200000 < lineParam s l 2) := by
  simp only [belowSpliceFloor, windowState_lineOf, h, windowState_lines, windowState_settings,
    vget_vset_self, endWindow_speed]

/-- OVERSPEED newly set raises the line's flag (R3). -/
theorem windowState_flag (ho : 200000 < 100 * (vget s.lines l).windowCount)
    (hn : (vget s.lines l).overspeed = false) (he : lineParam s l 3 = 1) :
    flagSet (windowState l s) (24 + l.val) = true := by
  have raised : ∀ u : State, lineParam u l 3 = 1 → flagSet (raiseLine l u) (24 + l.val) = true := by
    intro u hu
    rw [raiseLine, lineEnabled, hu]
    exact flagSet_raiseBit u (n := lineBit l) (by simp only [lineBit]; omega)
  have cond : ((endWindow (vget s.lines l)).overspeed && !(vget s.lines l).overspeed) = true := by
    simp [hn, ho]
  unfold windowState
  dsimp only
  rw [if_pos cond]
  exact flagSet_of_port rfl (raised _ he)

end WindowState

/-- The trackers of a line after its window end, and then its waiting rows. -/
def windowTrackers (l : LineId) (s : State) : State :=
  trackersEnd (standsOf s l) (min (100 * (vget s.lines l).windowCount) 200000) (lineParam s l 1)
    (windowState l s)

/-- The state after a window end, without the arbiter's choice. -/
def windowEnded (l : LineId) (s : State) : State :=
  sequencersEnd (standsOf s l) (retestRows l (windowTrackers l s))

section WindowEnd

variable (l : LineId) (s : State)

theorem exec_speedWindowEnd : exec (.speedWindowEnd l) s = .next (arbitrate (windowEnded l s)) := by
  have h : exec (.speedWindowEnd l) s = .next (arbitrate (handWindowEnd l (windowState l s))) := rfl
  rw [h]
  unfold handWindowEnd windowEnded windowTrackers trackersEnd sequencersEnd
  simp only [windowState_standsOf, windowState_lines, windowState_settings, vget_vset_self, endWindow_speed]

theorem windowTrackers_keeps : Keeps (windowState l s) (windowTrackers l s) := trackersEnd_keeps ..

theorem retest_keeps : Keeps (windowState l s) (retestRows l (windowTrackers l s)) :=
  retestRows_keeps (windowTrackers_keeps l s)

theorem windowEnded_keeps : Keeps (windowState l s) (arbitrate (windowEnded l s)) :=
  arbitrate_keeps ((retest_keeps l s).trans (sequencersEnd_keeps ..))

theorem windowTrackers_rows : (windowTrackers l s).rows = s.rows :=
  (trackersEnd_same (·.rows) (fun _ _ => by simp [trackerWindowEnd]) _ _).trans (windowState_rows l s)

theorem windowTrackers_sequencers : (windowTrackers l s).sequencers = s.sequencers :=
  (trackersEnd_same (·.sequencers) (fun _ _ => by simp [trackerWindowEnd]) _ _).trans
    (windowState_sequencers l s)

theorem windowTrackers_pastOnLine (r : RowId) : pastOnLine (windowTrackers l s) l r = pastOnLine s l r := by
  have rows : vget (windowTrackers l s).rows r = vget (windowState l s).rows r := by
    rw [windowTrackers_rows, windowState_rows]
  exact (pastOnLine_congr (windowTrackers_keeps l s).settings rows).trans (windowState_pastOnLine l s r)

theorem retestRows_same {β : Type} (part : State → β) (hf : ∀ r u, part (testOrder r u) = part u)
    (s : State) : part (retestRows l s) = part s :=
  foldl_same part _ (fun u r => by split; exacts [hf r u, rfl]) _ s

theorem windowEnded_trackers : (windowEnded l s).trackers = (windowTrackers l s).trackers :=
  (sequencersEnd_same (·.trackers) (fun _ _ => by simp) _ _).trans
    (retestRows_same l (·.trackers) (fun _ _ => by simp) _)

theorem windowEnded_arms : (windowEnded l s).arms = s.arms :=
  (sequencersEnd_same (·.arms) (fun _ _ => by simp) _ _).trans
    ((retestRows_same l (·.arms) (fun _ _ => by simp) _).trans
      ((trackersEnd_same (·.arms) (fun _ _ => by simp) _ _).trans (windowState_onlyIn l s .arms (by simp))))

theorem windowEnded_outputs : (windowEnded l s).outputs = s.outputs :=
  (sequencersEnd_same (·.outputs) (fun _ _ => by simp) _ _).trans
    ((retestRows_same l (·.outputs) (fun _ _ => by simp) _).trans
      ((trackersEnd_same (·.outputs) (fun _ _ => by simp) _ _).trans
        (windowState_onlyIn l s .outputs (by simp))))

theorem windowEnded_stands : (windowEnded l s).stands = s.stands :=
  (sequencersEnd_same (·.stands) (fun _ _ => by simp) _ _).trans
    ((retestRows_same l (·.stands) (fun _ _ => by simp) _).trans
      ((trackersEnd_same (·.stands) (fun _ _ => by simp) _ _).trans
        (windowState_onlyIn l s .stands (by simp))))

/-- The window end touches no arm, no output and no stand context (R4). -/
theorem windowEnded_onlyIn : OnlyIn [.now, .lines, .settings, .reels, .verifies, .trackers, .rows,
    .schedules, .sequencers, .bus, .port] s (arbitrate (windowEnded l s)) := by
  refine OnlyIn.trans ((windowState_onlyIn l s).mono (by simp)) ?_
  refine (windowEnded_keeps l s).onlyIn fun b hb hb' => ?_
  cases b
  case arms =>
    exact (arbitrate_arms _).trans ((windowEnded_arms l s).trans
      (windowState_onlyIn l s .arms (by simp)).symm)
  case outputs =>
    exact (arbitrate_outputs _).trans ((windowEnded_outputs l s).trans
      (windowState_onlyIn l s .outputs (by simp)).symm)
  case stands =>
    exact (arbitrate_stands _).trans ((windowEnded_stands l s).trans
      (windowState_onlyIn l s .stands (by simp)).symm)
  all_goals simp at hb hb'

variable {l s}

/-- A state that keeps what the window end handed out reads the floor as it does. -/
theorem window_below {u : State} (k : Keeps (windowState l s) u) {st : StandId} (h : lineOf s st = l) :
    belowSpliceFloor u (lineOf u st) =
      decide (min (100 * (vget s.lines l).windowCount) 200000 < lineParam s l 2) := by
  rw [belowSpliceFloor_congr k.lines k.settings, k.lineOf_eq, windowState_below l s h]

/-- At or above the splice floor the sequencers do nothing (R112). -/
theorem sequencersEnd_above {u : State} (k : Keeps (windowState l s) u)
    (h : lineParam s l 2 ≤ min (100 * (vget s.lines l).windowCount) 200000) :
    sequencersEnd (standsOf s l) u = u :=
  foldl_eq_self _ _ u fun st hst => sequencerWindowEnd_above (by
    rw [window_below k (mem_standsOf.1 hst)]; simpa using h)

/-- With no sequencer on the line none acts. -/
theorem sequencersEnd_none {u : State} (h : ∀ st, lineOf s st = l → vget u.sequencers st = none) :
    sequencersEnd (standsOf s l) u = u :=
  foldl_eq_self _ _ u fun st hst => sequencerWindowEnd_none (h st (mem_standsOf.1 hst))

/-! ### The trackers -/

section HoldTest

variable {x : Tracker} {v floor : Nat}

theorem afterHoldTest_enters (hx : x.state = .warming ∨ x.state = .tracking ∨ x.state = .learned)
    (hv : v < floor) : afterHoldTest x v floor = heldTracker x := by
  rcases hx with e | e | e <;> simp only [afterHoldTest, e, if_pos hv]

theorem afterHoldTest_leaves (hx : x.state = .hold) (hv : floor ≤ v) :
    afterHoldTest x v floor = resumedTracker x := by
  simp only [afterHoldTest, hx, if_neg (Nat.not_lt.2 hv)]

theorem afterHoldTest_stays
    (h : x.state = .fault ∨ x.state = .hold ∧ v < floor ∨ x.state ≠ .hold ∧ floor ≤ v) :
    afterHoldTest x v floor = x := by
  rcases h with e | ⟨e, hv⟩ | ⟨e, hv⟩
  · simp only [afterHoldTest, e]
  · simp only [afterHoldTest, e, if_pos hv]
  · cases hs : x.state with
    | hold => exact absurd hs e
    | fault => simp only [afterHoldTest, hs]
    | warming | tracking | learned => simp only [afterHoldTest, hs, if_neg (Nat.not_lt.2 hv)]

end HoldTest

theorem windowEnded_tracker_ne {st : StandId} (h : lineOf s st ≠ l) :
    vget (windowEnded l s).trackers st = vget s.trackers st := by
  rw [windowEnded_trackers, windowTrackers, trackersEnd_ne (mt mem_standsOf.1 h), windowState_trackers]

theorem windowEnded_tracker {st : StandId} {x : Tracker} (hl : lineOf s st = l)
    (h : vget s.trackers st = some x) : vget (windowEnded l s).trackers st = some
      { afterHoldTest x (min (100 * (vget s.lines l).windowCount) 200000) (lineParam s l 1) with
        runoutHeld := decide (extrapolated x (standPos s st) = some 0) } := by
  rw [windowEnded_trackers, windowTrackers, trackersEnd_self (mem_standsOf.2 hl) (standsOf_nodup s l)
    ((congrArg (vget · st) (windowState_trackers l s)).trans h), windowState_standPos]

/-- With no row tested again and no sequencer on the line, the records stay as the trackers leave them. -/
theorem windowEnded_quiet (hp : ∀ r, pastOnLine s l r = false)
    (hq : ∀ st, lineOf s st = l → vget s.sequencers st = none) :
    windowEnded l s = windowTrackers l s := by
  rw [windowEnded, retestRows_none fun r => (windowTrackers_pastOnLine l s r).trans (hp r)]
  exact sequencersEnd_none fun st hst => by rw [windowTrackers_sequencers]; exact hq st hst

/-- A LEARNED tracker that enters HOLD takes the learned decrement from its record (R61). -/
theorem windowEnded_unlearns {st : StandId} {x : Tracker} (hl : lineOf s st = l)
    (h : vget s.trackers st = some x) (hx : x.state = .learned)
    (hv : min (100 * (vget s.lines l).windowCount) 200000 < lineParam s l 1)
    (hp : ∀ r, pastOnLine s l r = false) (hq : ∀ st, lineOf s st = l → vget s.sequencers st = none) :
    NoLearned x.reel (arbitrate (windowEnded l s)) := by
  refine noLearned_of_reels ?_ (arbitrate_reels _)
  rw [windowEnded_quiet hp hq]
  exact trackersEnd_unlearns (mem_standsOf.2 hl) (standsOf_nodup s l)
    ((congrArg (vget · st) (windowState_trackers l s)).trans h) hx hv

/-! ### A row past its commit point (R77) -/

section PastRow

variable {r : RowId} {row : OrderRow} {p : Placement} {a : Nat}

theorem pastOnLine_of_row (h : vget s.rows r = some row) (hl : lineOf s row.stand = l)
    (hs : row.state = .armed) (hp : row.past = true) : pastOnLine s l r = true := by
  simp [pastOnLine, h, hl, hs, hp]

/-- At or above the splice floor the row commits at the line position. -/
theorem windowEnded_commits (h : vget s.rows r = some row) (hl : lineOf s row.stand = l)
    (hs : row.state = .armed) (hp : row.past = true) (hg : row.go = true) (hpl : row.place = some p)
    (ha : row.distance = some a) (hone : ∀ r', r' ≠ r → pastOnLine s l r' = false)
    (hv : lineParam s l 2 ≤ min (100 * (vget s.lines l).windowCount) 200000) :
    ∃ c, c.position = standPos s row.stand ∧
      vget (windowEnded l s).rows r = some { row with
        state := .accelerating, past := false, speedLow := false, commitment := some c
        late := decide ((standPos s row.stand - (p.plate - BitVec.ofNat 32 a)).toNat < 2147483648) } := by
  have keeps := windowTrackers_keeps l s
  have hrow : vget (windowTrackers l s).rows r = some row := by rw [windowTrackers_rows]; exact h
  have floor : belowSpliceFloor (windowTrackers l s) (lineOf (windowTrackers l s) row.stand) = false := by
    rw [window_below keeps hl]; simpa using hv
  have pos : position (windowTrackers l s) (lineOf (windowTrackers l s) row.stand) =
      standPos s row.stand :=
    (standPos_of_keeps keeps row.stand).trans (windowState_standPos l s row.stand)
  obtain ⟨rs, hrs, e⟩ := retestRows_one (s := windowTrackers l s) (l := l)
    ((windowTrackers_pastOnLine l s r).trans (pastOnLine_of_row h hl hs hp))
    fun r' hr' => (windowTrackers_pastOnLine l s r').trans (hone r' hr')
  refine ⟨⟨standPos s row.stand, frozenSettings (windowTrackers l s) row.stand,
    matchDeadline p.plate (standPos s row.stand) (newReelOutside (windowTrackers l s) row) a, 0⟩, rfl, ?_⟩
  rw [windowEnded, sequencersEnd_above (retest_keeps l s) hv, e]
  refine foldl_inv (P := fun u : State => vget u.rows r = some _) _ rs (fun u k _ hu => ?_) ?_
  · split
    · exact (row_evalClosed rfl).testOrder k hu
    · exact hu
  · rw [testOrder]
    refine settle_rows ?_ rfl
    rw [commitTest_commits hrow (by rw [hs]; rfl) hpl ha hg floor, commitRow_rows, vget_vset_self, pos]
    rfl

/-- Below the splice floor the row stays, with SPEED_LOW. -/
theorem windowEnded_speedLow (h : vget s.rows r = some row) (hl : lineOf s row.stand = l)
    (hs : row.state = .armed) (hp : row.past = true) (hg : row.go = true) (hpl : row.place = some p)
    (ha : row.distance = some a) (hone : ∀ r', r' ≠ r → pastOnLine s l r' = false)
    (hv : min (100 * (vget s.lines l).windowCount) 200000 < lineParam s l 2)
    (hq : ∀ st, lineOf s st = l → vget s.sequencers st = none)
    (hd : 2147483648 ≤ (standPos s row.stand - (p.plate - BitVec.ofNat 32 a)).toNat) :
    vget (windowEnded l s).rows r = some { row with speedLow := true } := by
  have keeps := windowTrackers_keeps l s
  have hrow : vget (windowTrackers l s).rows r = some row := by rw [windowTrackers_rows]; exact h
  have floor : belowSpliceFloor (windowTrackers l s) (lineOf (windowTrackers l s) row.stand) = true := by
    rw [window_below keeps hl]; simpa using hv
  have latest : atOrAfter (position (windowTrackers l s) (lineOf (windowTrackers l s) row.stand))
      (back p.plate a) = false := by
    have pos := (standPos_of_keeps keeps row.stand).trans (windowState_standPos l s row.stand)
    rw [standPos] at pos
    rw [pos]
    exact (atOrAfter_eq_false_iff _ _).2 hd
  have tested : testOrder r (windowTrackers l s) =
      setRow (windowTrackers l s) r (some { row with speedLow := true }) := by
    have same : ({ row with state := .armed, past := true, speedLow := true } : OrderRow) =
        { row with speedLow := true } := by cases row; simp_all
    rw [testOrder, commitTest_speedLow hrow (by rw [hs]; rfl) hpl ha hg floor latest, settle_zero, same]
  obtain ⟨rs, hrs, e⟩ := retestRows_one (s := windowTrackers l s) (l := l)
    ((windowTrackers_pastOnLine l s r).trans (pastOnLine_of_row h hl hs hp))
    fun r' hr' => (windowTrackers_pastOnLine l s r').trans (hone r' hr')
  have rest : retestRows l (windowTrackers l s) =
      setRow (windowTrackers l s) r (some { row with speedLow := true }) := by
    rw [e, tested]
    refine foldl_eq_self _ rs _ fun k hk => if_neg ?_
    have ne : k ≠ r := fun e => hrs (e ▸ hk)
    have same : pastOnLine (setRow (windowTrackers l s) r (some { row with speedLow := true })) l k =
        pastOnLine (windowTrackers l s) l k := pastOnLine_congr rfl (setRow_rows_ne _ ne)
    rw [same, windowTrackers_pastOnLine, hone k ne]
    exact Bool.false_ne_true
  rw [windowEnded, rest, sequencersEnd_none fun st hst => by
    rw [setRow_sequencers, windowTrackers_sequencers]; exact hq st hst]
  simp

end PastRow

/-- Below the splice floor an ACCELERATING or MATCHED order closes FAILED(SPEED_LOW) (R112). -/
theorem windowEnded_low {st : StandId} {q : Sequencer} {row : OrderRow} (hone : OneOpenOrder s)
    (hl : lineOf s st = l) (hq : vget s.sequencers st = some q)
    (hp : q.phase = .accelerating ∨ q.phase = .matched) (hrow : vget s.rows q.row = some row)
    (hst : row.stand = st) (hc : row.state = .accelerating ∨ row.state = .matched)
    (hv : min (100 * (vget s.lines l).windowCount) 200000 < lineParam s l 2) :
    LowClosed st q row (windowEnded l s) := by
  have keeps := windowTrackers_keeps l s
  have below : belowSpliceFloor (windowTrackers l s) (lineOf (windowTrackers l s) st) = true := by
    rw [window_below keeps hl]; simpa using hv
  have hw : row.state.waiting = false := by rcases hc with e | e <;> simp [e, OrderState.waiting]
  obtain ⟨-, -, hseq⟩ := (sequencer_evalClosed (x := some q) below).retestRows l
    ⟨rfl, rfl, by rw [windowTrackers_sequencers]; exact hq⟩
  have hkept : vget (retestRows l (windowTrackers l s)).rows q.row = some row :=
    (row_evalClosed hw).retestRows l (by rw [windowTrackers_rows]; exact hrow)
  have one : OneOpenOrder (windowState l s) := by
    unfold OneOpenOrder; rw [windowState_rows]; exact hone
  refine sequencersEnd_low (mem_standsOf.2 hl) (standsOf_nodup s l)
    (oneOpenOrder_of_keeps (retest_keeps l s) one) hseq hp hkept hst hc ?_
  rw [window_below (retest_keeps l s) hl]
  simpa using hv

end WindowEnd

/-- Settles O20: the window's counter, floors and flag, then each tracker, the rows past their commit points and
the sequencers of the line. -/
theorem speedWindowEnd : Obligations.SpeedWindowEnd := by
  intro l s
  have K := windowEnded_keeps l s
  refine ⟨_, exec_speedWindowEnd l s, ?_, ?_, ?_, ?_, ?_, ?_, ?_, ?_, ?_, ?_, ?_, ?_,
    windowEnded_onlyIn l s⟩
  · rw [K.lines, windowState_lines, vget_vset_self]
    rfl
  · intro j hj
    rw [K.lines, windowState_lines, vget_vset_ne _ _ _ _ hj]
  · rw [K.now, windowState_now]
  · rw [K.settings, windowState_settings, vget_vset_self]
  · intro j hj
    rw [K.settings, windowState_settings, vget_vset_ne _ _ _ _ hj]
  · rw [K.settings, windowState_settings]
  · rw [K.settings, windowState_settings]
  · exact fun ho hn he => K.flags _ (windowState_flag l s ho hn he)
  · intro st hst
    rw [arbitrate_trackers, windowEnded_tracker_ne hst]
  · intro st x hl hx
    rw [arbitrate_trackers, windowEnded_tracker hl hx]
    refine ⟨fun hs hv => ⟨?_, fun hlearned => windowEnded_unlearns hl hx hlearned hv⟩, fun hs hv => ?_,
      fun hs => ?_⟩
    · rw [afterHoldTest_enters hs hv, heldTracker]
    · rw [afterHoldTest_leaves hs hv, resumedTracker]
    · rw [afterHoldTest_stays hs]
  · intro r row p a h hl hs hp hg hpl ha hone
    rw [arbitrate_rows]
    exact ⟨windowEnded_commits h hl hs hp hg hpl ha hone,
      windowEnded_speedLow h hl hs hp hg hpl ha hone⟩
  · intro st q row hone hl hq hp hrow hst hc hv
    obtain ⟨hseq, hclosed⟩ := windowEnded_low hone hl hq hp hrow hst hc hv
    rw [arbitrate_rows, arbitrate_sequencers]
    exact ⟨hclosed, fun _ _ => hseq⟩

end Sys2Proof.Machine
end

section
/-! A stand that leaves service (R129, R162, R163): its condition, its open order and the order's new reel; and
what no such effect opens on the bus. -/

namespace Sys2Proof.Machine

open Sys2Proof

/-! ## Requests asked for (R138) -/

section Requests

variable {s : State} {st : StandId} {x r : Request} {q : List Request}

/-- A request placed is in the queue. -/
theorem mem_placeRequest_self (r : Request) (q : List Request) : r ∈ placeRequest r q := by
  unfold placeRequest
  split
  · simp
  · split
    · next h =>
      obtain ⟨y, hy, hs⟩ := List.any_eq_true.1 h
      exact List.mem_map.2 ⟨y, hy, if_pos hs⟩
    · simp

/-- A request of another kind stays in the queue when one that is no drive request is placed. -/
theorem mem_placeRequest (hd : isDrive r.kind = false) (hk : r.kind ≠ x.kind) (h : x ∈ q) :
    x ∈ placeRequest r q := by
  have differs : sameRequest r x = false := by simp [sameRequest, hd, hk]
  unfold placeRequest
  rw [if_neg (by simp [hd])]
  split
  · exact List.mem_map.2 ⟨x, h, by simp [differs]⟩
  · exact List.mem_append_left _ h

theorem mem_queueRequest_self (st : StandId) (r : Request) (s : State) :
    r ∈ vget (queueRequest st r s).bus.queues st := by
  simp [queueRequest, mem_placeRequest_self]

/-- A run that starts leaves the other requests queued (R24, R138). -/
theorem mem_startIfDue {y : ReelRecord} (hk : x.kind ≠ .verify) (h : x ∈ vget s.bus.queues st) :
    x ∈ vget (startIfDue y s).bus.queues st := by
  unfold startIfDue
  split
  · simp only [startRun, queueRequest, setBus_bus, vget_vset]
    split
    · next e => exact mem_placeRequest rfl (Ne.symm hk) (e ▸ h)
    · exact h
  · exact h

theorem mem_abortReturn {row : OrderRow} {why : Option OrderReason} (hk : x.kind ≠ .verify)
    (h : x ∈ vget s.bus.queues st) : x ∈ vget (abortReturn row why s).bus.queues st := by
  unfold abortReturn
  split
  · split
    · split
      · exact mem_startIfDue hk h
      · exact h
    · exact h
  · exact h

/-- The end of a grant and the arbiter's choice leave a queued request queued, or send it (R140). -/
theorem asked_of_queued (st' : StandId) (h : x ∈ vget s.bus.queues st) :
    Asked st x (arbitrate (endGrant st' s)) := by
  generalize hu : endGrant st' s = u
  have free : u.bus.pair = .free := by rw [← hu]; rfl
  have queued : x ∈ vget u.bus.queues st := by rw [← hu]; exact h
  have granting : Asked st x (grantTurn u) := by
    unfold grantTurn
    split
    · exact .inl queued
    · exact .inl queued
  have sending : Asked st x (requestTurn u) := by
    unfold requestTurn
    split
    · exact .inl queued
    · next k _ =>
      split
      · exact .inl queued
      · next r rest hq =>
        by_cases e : st = k
        · subst e
          rw [hq] at queued
          rcases List.mem_cons.1 queued with rfl | hr
          · exact .inr ⟨_, rfl⟩
          · exact .inl (by simpa using hr)
        · exact .inl (by simpa [vget_vset_ne, e] using queued)
  unfold arbitrate
  rw [free]
  dsimp only
  split
  · exact granting
  · split
    · exact sending
    · split
      · exact granting
      · exact .inl queued

end Requests

/-! ## Outstanding reads and index records (R144, R145) -/

/-- No read is opened, and the index records stay: an exchange alone opens them. -/
def BusKept (s t : State) : Prop :=
  t.bus.indexes = s.bus.indexes ∧ ∀ st, ∀ x ∈ vget t.bus.reads st, x ∈ vget s.bus.reads st

section BusKept

variable {s t u : State}

theorem BusKept.refl (s : State) : BusKept s s := ⟨rfl, fun _ _ h => h⟩

theorem BusKept.of_bus (h : BusKept s t) (hu : u.bus = t.bus) : BusKept s u := by
  unfold BusKept; rw [hu]; exact h

theorem queueRequest_busKept {st : StandId} {r : Request} (h : BusKept s t) :
    BusKept s (queueRequest st r t) := h

theorem withdrawGauge_busKept {st : StandId} {arm : Arm} (h : BusKept s t) :
    BusKept s (withdrawGauge st arm t) := by
  refine ⟨h.1, fun st' x hx => h.2 st' x ?_⟩
  simp only [withdrawGauge, setBus_bus, vget_vset] at hx
  split at hx
  · next e => exact e ▸ (List.mem_filter.1 hx).1
  · exact hx

theorem endGrant_busKept {st : StandId} (h : BusKept s t) : BusKept s (endGrant st t) := h

theorem arbitrate_busKept (h : BusKept s t) : BusKept s (arbitrate t) := by
  have granting : BusKept s (grantTurn t) := by unfold grantTurn; split <;> exact h
  have sending : BusKept s (requestTurn t) := by
    unfold requestTurn
    split
    · exact h
    · split <;> exact h
  unfold arbitrate
  split
  · split
    · exact granting
    · split
      · exact sending
      · split
        · exact granting
        · exact h
  · exact h

theorem endRun_busKept {st : StandId} (h : BusKept s t) : BusKept s (endRun st t) := by
  unfold endRun; split <;> exact h

theorem startIfDue_busKept {r : ReelRecord} (h : BusKept s t) : BusKept s (startIfDue r t) := by
  unfold startIfDue; split <;> exact h

theorem startAtSplice_busKept {st : StandId} (h : BusKept s t) : BusKept s (startAtSplice st t) := by
  unfold startAtSplice
  split
  · split
    · exact startIfDue_busKept h
    · exact h
  · exact h

theorem abortReturn_busKept {row : OrderRow} {why : Option OrderReason} (h : BusKept s t) :
    BusKept s (abortReturn row why t) := by
  unfold abortReturn
  split
  · split
    · split
      · exact startIfDue_busKept h
      · exact h
    · exact h
  · exact h

theorem releaseOrderOf_busKept {r : RowId} {row : OrderRow} {o : OrderState} {why : Option OrderReason}
    {d : Option DoneResults} {b : Bool} (h : BusKept s t) :
    BusKept s (releaseOrderOf r row o why d b t) := by
  have coast : BusKept s (coastUnlessLost row b (setRow t r (some (closedRow row o why d)))) := by
    unfold coastUnlessLost; split <;> exact h
  have abort : BusKept s (if abortable t row = true then
      abortReturn row why (coastUnlessLost row b (setRow t r (some (closedRow row o why d))))
      else setRow t r (some (closedRow row o why d))) := by
    split
    · exact abortReturn_busKept coast
    · exact h
  unfold releaseOrderOf
  refine BusKept.of_bus ?_ (untagOrder_bus ..)
  split
  · exact abort
  · exact abort

theorem closeRow_bus {s : State} {r : RowId} {row : OrderRow} (o : OrderState) (why : Option OrderReason)
    (d : Option DoneResults) (b : Bool) (h : vget s.rows r = some row) (ho : row.state.isOpen = true) :
    (closeRow r o why d b s).1.bus = (releaseOrderOf r row o why d b s).bus := by
  rw [closeRow_open o why d b h ho]; split <;> simp

theorem closeRow_busKept {r : RowId} {o : OrderState} {why : Option OrderReason}
    {d : Option DoneResults} {b : Bool} (h : BusKept s t) : BusKept s (closeRow r o why d b t).1 := by
  cases e : vget t.rows r with
  | none => rw [closeRow_none _ _ _ _ e]; exact h
  | some row =>
    cases ho : row.state.isOpen with
    | false => rw [closeRow_not_open _ _ _ _ e ho]; exact h
    | true => exact (releaseOrderOf_busKept h).of_bus (closeRow_bus _ _ _ _ e ho)

theorem busKept_evalClosed (s : State) : EvalClosed (BusKept s) where
  schedule _ _ _ h := h
  flag u e n h := h.of_bus (raiseBit_bus e n u)
  row _ _ _ _ _ _ _ _ h := h
  close _ _ _ _ _ _ _ _ _ h := closeRow_busKept h
  commit u r x p n b _ _ _ h := by
    refine BusKept.of_bus (queueRequest_busKept (st := x.stand) (r := accelRequest x.newArm
      (newReelOutside u x)) h) ?_
    simp [commitRow, queueRequest]

theorem closeOrder_busKept {r : RowId} {o : OrderState} {why : OrderReason} {b : Bool} (h : BusKept s t) :
    BusKept s (closeOrder r o why b t) := (busKept_evalClosed s).settle _ _ (closeRow_busKept h)

theorem faultOrder_busKept {st : StandId} {why : OrderReason} (h : BusKept s t) :
    BusKept s (faultOrder st why t) := by
  have mark : BusKept s (markFaultAfterPaste st t) := h
  unfold faultOrder
  split
  · exact h
  · split
    · exact h
    · split
      case h_5 =>
        split
        · exact mark
        · exact closeOrder_busKept h
      case h_6 => exact mark
      case h_1 | h_2 | h_3 | h_4 => exact closeOrder_busKept h
      all_goals exact h

theorem takeHardError_busKept {st : StandId} {e : HardError} (h : BusKept s t) :
    BusKept s (takeHardError st e t) := by
  unfold takeHardError
  dsimp only
  split
  · exact h
  · refine faultOrder_busKept (endRun_busKept (BusKept.of_bus h ?_))
    simp [raiseStand]
  · split
    · exact h
    · exact BusKept.of_bus h (by simp [raiseStand])
  · split
    · exact h
    · exact BusKept.of_bus h (by simp [raiseStand])

end BusKept

/-! ## The close of an order whose line has no other order to place -/

section Alone

variable {s : State} {r : RowId} {row : OrderRow} {o : OrderState} {why : OrderReason} {b : Bool}

/-- With no other order of the line to place a close moves no other row: its evaluation finds every entry
FROZEN. -/
theorem closeOrder_alone (h : vget s.rows r = some row) (ho : row.state.isOpen = true)
    (hz : AloneOnLine s row.stand r) :
    closeOrder r o why b s = (closeRow r o (some why) none b s).1 := by
  have line : lineOfRow s r = lineOf s row.stand := by simp [lineOfRow, h]
  have closed := closeRow_open o (some why) none b h ho
  rw [closeOrder, line]
  by_cases he : hasEntry s (lineOf s row.stand) r = true
  · rw [if_pos he] at closed
    refine settle_of_frozen (fun e hm => ?_) _
    rw [closed] at hm
    simp only [raiseRow_schedules, removeEntry, setSchedule_schedules, vget_vset_self,
      releaseOrderOf_schedules] at hm
    obtain ⟨hm, hne⟩ := List.mem_filter.1 hm
    exact hz e hm (by simpa using hne)
  · rw [if_neg he] at closed
    rw [closed, settle_zero]

/-- A row's flag raised in a state of the same settings is set (R183). -/
theorem flagSet_raiseRow_of_settings {u : State} {st : StandId} (h : (raiseRow r st u).settings = s.settings)
    (he : standParam s st 13 = 1) : flagSet (raiseRow r st u) (8 + r.val) = true := by
  have settings : u.settings = s.settings := (raiseRow_keeps (.refl u)).settings.symm.trans h
  exact flagSet_raiseRow (by rw [← he, standParam, standParam, settings])

theorem closeOrder_flag (h : vget s.rows r = some row) (ho : row.state.isOpen = true)
    (he : standParam s row.stand 13 = 1) : flagSet (closeOrder r o why b s) (8 + r.val) = true := by
  have raised : flagSet (closeRow r o (some why) none b s).1 (8 + r.val) = true := by
    have settings := (closeRow_keeps (r := r) (o := o) (why := some why) (d := none) (b := b)
      (.refl s)).settings
    rw [closeRow_open o (some why) none b h ho] at settings ⊢
    split at settings
    · next e => rw [if_pos e]; exact flagSet_raiseRow_of_settings settings he
    · next e => rw [if_neg e]; exact flagSet_raiseRow_of_settings settings he
  exact (settle_keeps (.refl _)).flags _ raised

end Alone

/-! ## The new reel of an order that closes (R30, R32) -/

section NewReel

variable {s : State} {row : OrderRow} {i : SlotId} {r : ReelRecord} {why : Option OrderReason}

/-- The order's new reel loses the order's tag alone (R30). -/
theorem untagOrder_newReel (hi : findReel s row.newReel = some i) (hr : vget s.reels i = some r)
    (ht : r.tag = some row.tag) : vget (untagOrder row s).reels i = some { r with tag := none } := by
  have slot : findReel (untagReel row row.expiring s) row.newReel = some i :=
    ((untagReel_sameNumbers row row.expiring s).findReel_eq _).trans hi
  by_cases e : orderReel s row row.expiring = some i
  · exact untagReel_untagged (untagReel_self e hr) rfl
  · have kept : vget (untagReel row row.expiring s).reels i = some r := by
      unfold untagReel
      split
      · next j hj =>
        have : i ≠ j := fun h => e (h ▸ hj)
        simpa [vget_vset_ne, this] using hr
      · exact hr
    exact untagReel_self (orderReel_eq slot kept ht) kept

/-- The abort return of a COMMITTED new reel, after any reason but TAPE_NOT_FOUND (R32). -/
theorem abortReturn_committed (hi : findReel s row.newReel = some i) (hr : vget s.reels i = some r)
    (ht : r.tag = some row.tag) (hs : r.state = .committed) (hw : why ≠ some .tapeNotFound) :
    vget (abortReturn row why s).reels i = some { r with state := .prepared, verify := .untested } := by
  simp [abortReturn, orderReel_eq hi hr ht, hr, hs, hw]

variable {k : RowId} {o : OrderState} {d : Option DoneResults} {b : Bool}

theorem releaseOrderOf_sameNumbers : SameNumbers s (releaseOrderOf k row o why d b s) := by
  obtain ⟨u, e, numbers, -⟩ := releaseOrderOf_untags k row o why d b s
  rw [e]
  exact (numbers.trans (untagReel_sameNumbers _ _ u)).trans (untagReel_sameNumbers _ _ _)

/-- A new reel that is not COMMITTED, in the close of its order. -/
theorem releaseOrderOf_ready (hi : findReel s row.newReel = some i) (hr : vget s.reels i = some r)
    (ht : r.tag = some row.tag) (hs : r.state ≠ .committed) :
    vget (releaseOrderOf k row o why d b s).reels i = some { r with tag := none } := by
  obtain ⟨u, e, numbers, kept⟩ := releaseOrderOf_untags k row o why d b s
  rw [e]
  exact untagOrder_newReel ((numbers.findReel_eq _).trans hi) (kept i r hr hs) ht

/-- A COMMITTED new reel, in the close of its order before the paste boundary (R32). -/
theorem releaseOrderOf_committed (ha : abortable s row = true) (hi : findReel s row.newReel = some i)
    (hr : vget s.reels i = some r) (ht : r.tag = some row.tag) (hs : r.state = .committed)
    (hw : why ≠ some .tapeNotFound) : vget (releaseOrderOf k row o why d b s).reels i =
      some { r with state := .prepared, verify := .untested, tag := none } := by
  have untag : ∀ u : State, SameNumbers s u →
      vget u.reels i = some { r with state := .prepared, verify := .untested } →
      vget (untagOrder row u).reels i =
        some { r with state := .prepared, verify := .untested, tag := none } := fun u hn hu =>
    untagOrder_newReel ((hn.findReel_eq _).trans hi) hu ht
  have coasted : SameNumbers s (coastUnlessLost row b (setRow s k (some (closedRow row o why d)))) :=
    .of_reels (by simp)
  have returned := abortReturn_committed (why := why) ((coasted.findReel_eq _).trans hi) (by simpa using hr)
    ht hs hw
  have numbers := coasted.trans (abortReturn_sameNumbers row why _)
  unfold releaseOrderOf
  dsimp only
  rw [if_pos ha]
  split
  · exact untag _ numbers returned
  · exact untag _ (numbers.trans (.of_reels rfl)) returned

/-- COAST is queued at an abort, but for a stand that is LOST (R81 step 1). -/
theorem releaseOrderOf_coast (ha : abortable s row = true)
    (hl : (vget s.stands row.stand).errors.lost = false) :
    (⟨.coast, some row.newArm, none, none⟩ : Request) ∈
      vget (releaseOrderOf k row o why d b s).bus.queues row.stand := by
  have coasted : (⟨.coast, some row.newArm, none, none⟩ : Request) ∈ vget (coastUnlessLost row b
      (setRow s k (some (closedRow row o why d)))).bus.queues row.stand := by
    rw [coastUnlessLost, if_neg (by simp [hl])]
    exact mem_queueRequest_self ..
  have returned := mem_abortReturn (row := row) (why := why) (by simp) coasted
  unfold releaseOrderOf
  dsimp only
  rw [if_pos ha]
  split
  · rw [untagOrder_bus]; exact returned
  · rw [untagOrder_bus]; exact returned

end NewReel

/-! ## Verification contexts of stands not ONLINE (R24) -/

section Idle

variable {s : State} {st : StandId}

/-- No run starts on a stand that is not ONLINE. -/
theorem startIfDue_verifies_offline {r : ReelRecord} (h : isOnline s st = false) :
    vget (startIfDue r s).verifies st = vget s.verifies st := by
  unfold startIfDue
  split
  · next arm e =>
    have online : isOnline s r.stand = true := by
      have := (Option.filter_eq_some_iff.1 e).2
      simp only [Bool.and_eq_true] at this
      exact this.1.2
    have : st ≠ r.stand := by rintro rfl; rw [h] at online; cases online
    simp [startRun, vget_vset_ne, this]
  · rfl

theorem isOnline_congr {t : State} (h : t.stands = s.stands) : isOnline t st = isOnline s st := by
  simp only [isOnline, h]

theorem abortReturn_verifies_offline {row : OrderRow} {why : Option OrderReason} (h : isOnline s st = false) :
    vget (abortReturn row why s).verifies st = vget s.verifies st := by
  unfold abortReturn
  split
  · split
    · split
      · exact startIfDue_verifies_offline h
      · rfl
    · rfl
  · rfl

theorem closeOrder_verifies_offline {r : RowId} {o : OrderState} {why : OrderReason} {b : Bool}
    (h : isOnline s st = false) :
    vget (closeOrder r o why b s).verifies st = vget s.verifies st := by
  rw [closeOrder, settle_verifies]
  cases e : vget s.rows r with
  | none => rw [closeRow_none _ _ _ _ e]
  | some row =>
    cases ho : row.state.isOpen with
    | false => rw [closeRow_not_open _ _ _ _ e ho]
    | true =>
      have abort : vget (abortReturn row (some why) (coastUnlessLost row b
          (setRow s r (some (closedRow row o (some why) none))))).verifies st = vget s.verifies st := by
        rw [abortReturn_verifies_offline ((isOnline_congr (by simp)).trans h)]
        simp
      rw [closeRow_verifies _ _ _ _ e ho, releaseOrderOf, untagOrder_verifies]
      split <;> split
      · exact abort
      · rfl
      · exact abort
      · rfl

end Idle
end Sys2Proof.Machine
end

section
/-! The hard error of an ONLINE stand, in one event (R129, R163). -/

namespace Sys2Proof.Machine

open Sys2Proof

section LeaveService

variable {s : State} {st : StandId} {r : RowId} {row : OrderRow} {why : OrderReason}

theorem openRow_some (h : openRow s st = some r) (hr : vget s.rows r = some row) :
    row.stand = st ∧ row.state.isOpen = true := by
  have := List.find?_some h
  simpa [hr] using this

/-- Before the paste boundary a committed order aborts at its close (R81 step 1). -/
theorem abortable_of_before (hst : row.stand = st) (ho : row.state.isOpen = true)
    (hp : ¬ pastBoundary s st row) (hw : row.state.waiting = false) : abortable s row = true := by
  subst hst
  unfold pastBoundary at hp
  unfold abortable
  cases hs : row.state <;> simp_all [OrderState.isOpen, OrderState.waiting]

/-- Before its paste boundary the open order closes (R163). -/
theorem faultOrder_before (h : openRow s st = some r) (hr : vget s.rows r = some row)
    (hp : ¬ pastBoundary s st row) : faultOrder st why s = closeOrder r .failed why true s := by
  obtain ⟨-, ho⟩ := openRow_some h hr
  unfold pastBoundary at hp
  simp only [faultOrder, h, hr]
  cases hs : row.state with
  | armed | held | accelerating | matched => rfl
  | pasting => exact if_neg fun hf => hp (.inr ⟨hs, hf⟩)
  | closing => exact absurd (.inl hs) hp
  | done | failed | dropped | cancelled => simp [hs, OrderState.isOpen] at ho

/-- Past it the sequencer marks fault after paste (R129). -/
theorem faultOrder_past (h : openRow s st = some r) (hr : vget s.rows r = some row)
    (hp : pastBoundary s st row) : faultOrder st why s = markFaultAfterPaste st s := by
  simp only [faultOrder, h, hr]
  rcases hp with hs | ⟨hs, hf⟩
  · simp [hs]
  · simp [hs, hf]

theorem faultOrder_verifies_offline (h : isOnline s st = false) :
    vget (faultOrder st why s).verifies st = vget s.verifies st := by
  unfold faultOrder
  split
  · rfl
  · split
    · rfl
    · split
      case h_5 =>
        split
        · rfl
        · exact closeOrder_verifies_offline h
      case h_6 => rfl
      case h_1 | h_2 | h_3 | h_4 => exact closeOrder_verifies_offline h
      all_goals rfl

/-- A stand that has left service, before its order is acted on (R163). -/
def leftService (st : StandId) (e : HardError) (s : State) : State :=
  endRun st (raiseStand st (modStand st (fun x => { x with condition := .fault, stopHold := none })
    (setStand s st { vget s.stands st with errors := addError e (vget s.stands st).errors })))

variable (e : HardError)

/-- A hard error takes an ONLINE stand out of service (R163). -/
theorem takeHardError_online (ho : (vget s.stands st).condition = .online) :
    takeHardError st e s = faultOrder st .standFault (leftService st e s) := by
  simp only [takeHardError, ho, leaveService, leftService]

theorem leftService_stands : (leftService st e s).stands = vset s.stands st { vget s.stands st with
    condition := .fault, stopHold := none, errors := addError e (vget s.stands st).errors } := by
  simp [leftService, modStand, raiseStand, setStand, vset_vset]

theorem endRun_verifies (st : StandId) (s : State) : (endRun st s).verifies = vset s.verifies st none := by
  unfold endRun
  split
  · simp
  · next h => rw [← h, vset_vget_self]

theorem leftService_verifies : vget (leftService st e s).verifies st = none := by
  rw [leftService, endRun_verifies, vget_vset_self]

/-- The rows, the schedules, the sequencers and the settings of two states are the same. -/
structure SameOrders (s t : State) : Prop where
  rows : t.rows = s.rows
  schedules : t.schedules = s.schedules
  sequencers : t.sequencers = s.sequencers
  settings : t.settings = s.settings

theorem leftService_sameOrders : SameOrders s (leftService st e s) where
  rows := by simp [leftService, modStand, raiseStand]
  schedules := by simp [leftService, modStand, raiseStand]
  sequencers := by simp [leftService, modStand, raiseStand]
  settings := (endRun_keeps (st := st) (raiseStand_keeps (st := st) (.refl _))).settings

theorem leftService_reels : (leftService st e s).reels = s.reels := by
  simp [leftService, modStand, raiseStand]

end LeaveService

/-! ## What two states with the same orders agree on -/

namespace SameOrders

variable {s t u : State} {st : StandId}

theorem trans (h : SameOrders s t) (k : SameOrders t u) : SameOrders s u :=
  ⟨k.rows.trans h.rows, k.schedules.trans h.schedules, k.sequencers.trans h.sequencers,
    k.settings.trans h.settings⟩

theorem openRow_eq (h : SameOrders s t) : openRow t st = openRow s st := by
  simp only [openRow, h.rows]

theorem pastBoundary_iff (h : SameOrders s t) (row : OrderRow) :
    pastBoundary t st row ↔ pastBoundary s st row := by
  simp only [pastBoundary, pasteFiredFor, h.sequencers]

theorem aloneOnLine_iff (h : SameOrders s t) (r : RowId) : AloneOnLine t st r ↔ AloneOnLine s st r := by
  simp only [AloneOnLine, h.schedules, lineOf, standParam, h.settings]

theorem orderFaulted {why : OrderReason} (h : SameOrders s t) (k : OrderFaulted st why t u) :
    OrderFaulted st why s u := by
  intro r row ho hr
  have faulted := k r row (h.openRow_eq.trans ho) (by rw [h.rows]; exact hr)
  rw [h.pastBoundary_iff, h.aloneOnLine_iff, h.sequencers, standParam, h.settings] at faulted
  exact faulted

theorem outOfService {c : Condition} (h : SameOrders s t) (k : OutOfService st c t u) :
    OutOfService st c s u := by
  unfold OutOfService at *
  rw [standParam, h.settings] at k
  exact k

end SameOrders

/-- The records in the hands of the orders are found unchanged: those with a tag that are not EXPIRED. -/
def TaggedKept (s t : State) : Prop :=
  ∀ n r, reelOf s n = some r → r.tag ≠ none → r.state ≠ .expired → reelOf t n = some r

theorem TaggedKept.of_reels {s t : State} (h : t.reels = s.reels) : TaggedKept s t := by
  intro n r hr _ _
  rw [reelOf, (SameNumbers.of_reels h).findReel_eq, h]
  exact hr

theorem SameOrders.newReelReturned {s t u : State} {st : StandId} (h : SameOrders s t) (hk : TaggedKept s t)
    (k : NewReelReturned st t u) : NewReelReturned st s u := by
  intro r row new ho hr hp hz hn ht
  have returned := k r row new (h.openRow_eq.trans ho) (by rw [h.rows]; exact hr)
    (mt (h.pastBoundary_iff row).1 hp) ((h.aloneOnLine_iff r).2 hz)
  have tagged : new.tag ≠ none := by rw [ht]; simp
  refine ⟨fun hs => (returned (hk _ _ hn tagged ?_) ht).1 hs,
    fun hs => (returned (hk _ _ hn tagged ?_) ht).2 hs⟩
  · rw [hs]; simp
  · rw [hs]; simp

/-! ## The order of a stand that leaves service -/

section FaultOrder

variable (st : StandId) (why : OrderReason) (s : State)

theorem faultOrder_orderFaulted :
    OrderFaulted st why s (arbitrate (endGrant st (faultOrder st why s))) := by
  intro r row h hr
  obtain ⟨hst, ho⟩ := openRow_some h hr
  refine ⟨fun hp => ?_, fun hp => ?_⟩
  · have close : faultOrder st why s = closeOrder r .failed why true s := faultOrder_before h hr hp
    rw [close, arbitrate_rows, endGrant_rows, arbitrate_sequencers, endGrant_sequencers, arbitrate_stands,
      endGrant_stands, closeOrder_stands]
    refine ⟨closeOrder_rows hr ho rfl, fun he => ?_, fun hw hz => ?_⟩
    · exact (arbitrate_keeps (endGrant_keeps (st := st) (.refl _))).flags _
        (closeOrder_flag hr ho (by rw [hst]; exact he))
    · rw [closeOrder_alone hr ho (by rw [hst]; exact hz)]
      refine ⟨?_, fun hl => asked_of_queued st ?_⟩
      · rw [closeRow_sequencers _ _ _ _ hr ho, hw, hst]; simp
      · subst hst
        rw [closeRow_bus _ _ _ _ hr ho]
        exact releaseOrderOf_coast (abortable_of_before rfl ho hp hw) hl
  · rw [faultOrder_past h hr hp, arbitrate_rows, endGrant_rows, arbitrate_sequencers, endGrant_sequencers]
    exact ⟨hr, by simp [markFaultAfterPaste, modSequencer]⟩

theorem faultOrder_newReelReturned (hw : why ≠ .tapeNotFound) :
    NewReelReturned st s (arbitrate (endGrant st (faultOrder st why s))) := by
  intro r row new h hr hp hz hn ht
  obtain ⟨hst, ho⟩ := openRow_some h hr
  obtain ⟨i, hi, hri⟩ := reelOf_some hn
  subst hst
  have reels : (arbitrate (endGrant row.stand (faultOrder row.stand why s))).reels =
      (releaseOrderOf r row .failed (some why) none true s).reels := by
    rw [arbitrate_reels, endGrant_reels, faultOrder_before h hr hp, closeOrder_alone hr ho hz,
      closeRow_reels _ _ _ _ hr ho]
  have slot : findReel (arbitrate (endGrant row.stand (faultOrder row.stand why s))) row.newReel = some i :=
    ((SameNumbers.of_reels reels).findReel_eq _).trans ((releaseOrderOf_sameNumbers.findReel_eq _).trans hi)
  refine ⟨fun hs => reelOf_eq slot ?_, fun hs hwait => reelOf_eq slot ?_⟩
  · rw [reels]
    exact releaseOrderOf_ready hi hri ht (by rw [hs]; simp)
  · rw [reels]
    exact releaseOrderOf_committed (abortable_of_before rfl ho hp hwait) hi hri ht hs
      (by simpa using hw)

end FaultOrder

/-! ## The hard error of an ONLINE stand -/

section HardError

variable {s : State} {st : StandId} {e : HardError}

theorem flagSet_raiseStand (h : standParam s st 13 = 1) : flagSet (raiseStand st s) st.val = true := by
  rw [raiseStand, standEnabled, h]
  exact flagSet_raiseBit s (n := standBit st) (by simp only [standBit]; omega)

/-- What a hard error leaves of the stand contexts: it touches the condition, the hard errors and the stop hold
of its own stand alone. -/
def ContextHeld (st : StandId) (s t : State) : Prop :=
  OnlyAt st s.stands t.stands ∧ (vget t.stands st).map = (vget s.stands st).map ∧
    (vget t.stands st).loaded = (vget s.stands st).loaded ∧
    (vget t.stands st).outcome = (vget s.stands st).outcome

theorem takeHardError_contextHeld (st : StandId) (e : HardError) (s : State) :
    ContextHeld st s (takeHardError st e s) := by
  have same : ContextHeld st s s := ⟨fun _ _ => rfl, rfl, rfl, rfl⟩
  have added : ∀ c, ContextHeld st s (raiseStand st (setStand s st { vget s.stands st with
      condition := c, errors := addError e (vget s.stands st).errors })) := fun c => by
    simp +contextual [ContextHeld, OnlyAt, raiseStand, vget_vset_ne]
  cases hc : (vget s.stands st).condition with
  | offline => simpa only [takeHardError, hc] using same
  | online =>
    rw [takeHardError_online e hc, ContextHeld, OnlyAt, faultOrder_stands, leftService_stands]
    simp +contextual [vget_vset_ne]
  | fault | lockedOut =>
    simp only [takeHardError, hc]
    split
    · exact same
    · exact added _

variable (ho : (vget s.stands st).condition = .online)

include ho

theorem takeHardError_stand : vget (takeHardError st e s).stands st = { vget s.stands st with
    condition := .fault, stopHold := none, errors := addError e (vget s.stands st).errors } := by
  rw [takeHardError_online e ho, faultOrder_stands, leftService_stands, vget_vset_self]

theorem takeHardError_outOfService :
    OutOfService st .fault s (arbitrate (endGrant st (takeHardError st e s))) := by
  have offline : isOnline (leftService st e s) st = false := by
    simp [isOnline, leftService_stands]
  refine ⟨?_, ?_, ?_, fun he => ?_⟩
  · rw [arbitrate_stands, endGrant_stands, takeHardError_stand ho]
  · rw [arbitrate_stands, endGrant_stands, takeHardError_stand ho]
  · rw [arbitrate_verifies, endGrant_verifies, takeHardError_online e ho,
      faultOrder_verifies_offline offline, leftService_verifies]
  · have raised : flagSet (raiseStand st (modStand st (fun x => { x with
        condition := .fault, stopHold := none }) (setStand s st { vget s.stands st with
        errors := addError e (vget s.stands st).errors }))) st.val = true := flagSet_raiseStand he
    rw [takeHardError_online e ho]
    exact (arbitrate_keeps (endGrant_keeps (st := st)
      (faultOrder_keeps (st := st) (why := .standFault) (endRun_keeps (st := st) (.refl _))))).flags _ raised

theorem takeHardError_orderFaulted :
    OrderFaulted st .standFault s (arbitrate (endGrant st (takeHardError st e s))) := by
  rw [takeHardError_online e ho]
  exact (leftService_sameOrders e).orderFaulted (faultOrder_orderFaulted st .standFault _)

theorem takeHardError_newReelReturned :
    NewReelReturned st s (arbitrate (endGrant st (takeHardError st e s))) := by
  rw [takeHardError_online e ho]
  exact (leftService_sameOrders e).newReelReturned (.of_reels (leftService_reels e))
    (faultOrder_newReelReturned st .standFault _ (by simp))

end HardError

end Sys2Proof.Machine
end

section
/-! Spider maps and arm reports of INDEX DONE and STATUS (R11, R24, R37, R157, R161). -/

namespace Sys2Proof.Machine

open Sys2Proof

/-! ## An adopted map (R11, R28) -/

section AdoptMap

variable (st : StandId) (m : PerArm SpiderPos) (s : State)

theorem wellMade_iff {m : PerArm SpiderPos} :
    wellMade m = true ↔ m.a ≠ m.b ∧ m.b ≠ m.c ∧ m.a ≠ m.c := by
  simp [wellMade, and_assoc]

/-- A well-made map shows no other arm where it shows one. -/
theorem wellMade_inj {m : PerArm SpiderPos} (h : wellMade m = true) {x y : Arm}
    (e : armGet m x = armGet m y) : x = y := by
  obtain ⟨hab, hbc, hac⟩ := wellMade_iff.1 h
  cases x <;> cases y <;> simp_all [armGet]

theorem writeOutcome_stands (st : StandId) (o : LastOutcome) (s : State) :
    (writeOutcome st o s).stands = vset s.stands st { vget s.stands st with outcome := o } := by
  simp [writeOutcome, raiseStand]

theorem armContext_clearTapeCounts (arm : Arm) : armContext (clearTapeCounts st s) st arm =
    { armContext s st arm with tapeCount := 0 } := by
  cases arm <;> simp [armContext, clearTapeCounts, armGet]

theorem adoptMap_stands :
    (adoptMap st m s).stands = vset s.stands st { vget s.stands st with map := some m } := by
  unfold adoptMap; dsimp only; (repeat' split) <;> simp [modStand]

theorem adoptMap_arms : (adoptMap st m s).arms = (clearTapeCounts st s).arms := by
  unfold adoptMap; dsimp only; (repeat' split) <;> simp [clearTapeCounts]

theorem adoptMap_reels : (adoptMap st m s).reels = s.reels := by
  unfold adoptMap; dsimp only; (repeat' split) <;> simp [clearTapeCounts]

theorem adoptMap_sameOrders : SameOrders s (adoptMap st m s) where
  rows := by unfold adoptMap; dsimp only; (repeat' split) <;> simp [clearTapeCounts]
  schedules := by unfold adoptMap; dsimp only; (repeat' split) <;> simp [clearTapeCounts]
  sequencers := by unfold adoptMap; dsimp only; (repeat' split) <;> simp [clearTapeCounts]
  settings := (adoptMap_keeps (.refl s)).settings

theorem adoptMap_busKept {t : State} (h : BusKept t s) : BusKept t (adoptMap st m s) := by
  unfold adoptMap
  dsimp only
  split
  · split
    · exact h
    · exact endRun_busKept h
  · exact h

/-- No run of another arm than the one shown at SPLICE stays (R28). -/
theorem adoptMap_verifies {st : StandId} {m : PerArm SpiderPos} {s : State} {arm : Arm}
    (hm : wellMade m = true) (ha : armGet m arm = .splice)
    (hv : ∀ v, vget s.verifies st = some v → v.arm ≠ arm) :
    vget (adoptMap st m s).verifies st = none := by
  have same : (clearTapeCounts st (modStand st (fun x => { x with map := some m }) s)).verifies =
      s.verifies := by simp [clearTapeCounts]
  unfold adoptMap
  dsimp only
  rw [same]
  cases e : vget s.verifies st with
  | none => simpa [clearTapeCounts] using e
  | some v =>
    have moved : armGet m v.arm ≠ .splice := fun h => hv v e (wellMade_inj hm (h.trans ha.symm))
    simp only [beq_iff_eq, if_neg moved, endRun_verifies, vget_vset_self]

end AdoptMap

/-! ## The records bound to a stand's arms -/

section Bound

variable {s t : State} {st : StandId} {arm : Arm} {i : SlotId} {r : ReelRecord}

theorem boundSlot_some (h : boundSlot s st arm = some i) :
    ∃ r, vget s.reels i = some r ∧ r.stand = st ∧ r.arm = some arm := by
  have := List.find?_some h
  cases e : vget s.reels i with
  | none => simp [e] at this
  | some r => exact ⟨r, rfl, by simpa [e] using this⟩

theorem boundReel_some (h : boundReel s st arm = some r) : r.stand = st ∧ r.arm = some arm := by
  obtain ⟨i, hi, hr⟩ := Option.bind_eq_some_iff.1 h
  obtain ⟨x, hx, hst, ha⟩ := boundSlot_some hi
  rw [hr] at hx
  cases hx
  exact ⟨hst, ha⟩

theorem boundReel_congr (h : t.reels = s.reels) (st : StandId) (arm : Arm) :
    boundReel t st arm = boundReel s st arm := by simp only [boundReel, boundSlot, h]

/-- The first element to pass a test still passes first when fewer others pass. -/
theorem find?_of_imp {α : Type} {p p' : α → Bool} {xs : List α} {a : α} (h : xs.find? p = some a)
    (ha : p' a = true) (hp : ∀ x, p' x = true → p x = true) : xs.find? p' = some a := by
  obtain ⟨-, ys, zs, e, hys⟩ := List.find?_eq_some_iff_append.1 h
  refine List.find?_eq_some_iff_append.2 ⟨ha, ys, zs, e, fun x hx => ?_⟩
  have fails := hys x hx
  cases hx' : p' x with
  | false => rfl
  | true => simp [hp x hx'] at fails

/-- What an emptied arm makes of its record: an EXPIRED one is freed, one without an order is unbound (R38). -/
def Removed (r : ReelRecord) (y : Option ReelRecord) : Prop :=
  r.state = .expired ∧ y = none ∨ r.tag = none ∧ y = some (unboundRecord r)

variable {y : Option ReelRecord}

/-- Such a removal touches no record in the hands of an order. -/
theorem taggedKept_of_removed (hi : vget s.reels i = some r) (hy : Removed r y)
    (ht : t.reels = vset s.reels i y) : TaggedKept s t := by
  intro n x hx htag hexp
  obtain ⟨k, hk, hxk⟩ := reelOf_some hx
  have ne : k ≠ i := by
    rintro rfl
    rw [hi] at hxk
    cases hxk
    rcases hy with ⟨h, -⟩ | ⟨h, -⟩
    · exact hexp h
    · exact htag h
  have kept : vget t.reels k = some x := by rw [ht, vget_vset_ne _ _ _ _ ne]; exact hxk
  refine reelOf_eq (find?_of_imp hk ?_ fun j hj => ?_) kept
  · rw [kept]
    simpa [hxk] using List.find?_some hk
  · rw [ht, vget_vset] at hj
    split at hj
    · next e =>
      subst e
      rcases hy with ⟨-, rfl⟩ | ⟨-, rfl⟩
      · simp at hj
      · simpa [hi, unboundRecord] using hj
    · exact hj

/-- Nor a record bound to another arm. -/
theorem boundReel_of_removed {arm' : Arm} (hi : vget s.reels i = some r) (ha : r.arm = some arm)
    (hne : arm' ≠ arm) (hy : Removed r y) (ht : t.reels = vset s.reels i y) :
    boundReel t st arm' = boundReel s st arm' := by
  have slot : boundSlot t st arm' = boundSlot s st arm' := by
    refine List.find?_congr fun j _ => ?_
    rw [ht, vget_vset]
    split
    · next e =>
      subst e
      have other : (r.arm == some arm') = false := by simp [ha, Ne.symm hne]
      rcases hy with ⟨-, rfl⟩ | ⟨-, rfl⟩
      · simp [hi, other]
      · simp [hi, other, unboundRecord]
    · rfl
  unfold boundReel
  rw [slot]
  refine Option.bind_congr fun j hj => ?_
  have ne : j ≠ i := by
    rintro rfl
    obtain ⟨x, hx, -, hxa⟩ := boundSlot_some hj
    rw [hi] at hx
    cases hx
    rw [ha] at hxa
    exact hne (Option.some.inj hxa).symm
  rw [ht, vget_vset_ne _ _ _ _ ne]

end Bound
end Sys2Proof.Machine
end

section
/-! INDEX DONE and a STATUS response (R157, R161). -/

namespace Sys2Proof.Machine

open Sys2Proof

/-! ## An arm of a STATUS response (R37, R38, R157) -/

/-- The arms that a STATUS response shows not loaded carry no record whose removal touches an order or faults
the stand (R38). -/
def Removable (s : State) (st : StandId) (arm : Arm) (x : ArmStatus) : Prop :=
  ∀ r, boundReel s st arm = some r → x.loaded = true ∨ r.state = .expired ∨
    r.tag = none ∧ r.state ≠ .committed ∧ r.state ≠ .running

/-- What such a report leaves: the orders and their records, the stand's condition, and the records bound to the
other arms. -/
structure ArmQuiet (st : StandId) (arm : Arm) (s t : State) : Prop where
  orders : SameOrders s t
  tagged : TaggedKept s t
  condition : (vget t.stands st).condition = (vget s.stands st).condition
  others : ∀ arm', arm' ≠ arm → boundReel t st arm' = boundReel s st arm'

section ArmStatus

variable {s t : State} {st : StandId} {arm : Arm} {i : SlotId} {r : ReelRecord} {x : ArmStatus}

theorem endRunOf_busKept {n : Nat} (h : BusKept s t) : BusKept s (endRunOf st n t) := by
  unfold endRunOf
  split
  · exact endRun_busKept h
  · exact h

theorem newReelRemoved_busKept {tag : Option Nat} (h : BusKept s t) :
    BusKept s (newReelRemoved tag t) := by
  unfold newReelRemoved
  split
  · exact closeOrder_busKept h
  · exact h

theorem reelEmptied_busKept (h : BusKept s t) : BusKept s (reelEmptied st arm t).1 := by
  have gauge : BusKept s (withdrawGauge st arm t) := withdrawGauge_busKept h
  unfold reelEmptied
  dsimp only
  split
  · exact gauge
  · split
    · exact gauge
    · split
      case h_1 | h_2 | h_3 => exact gauge
      all_goals exact newReelRemoved_busKept (endRunOf_busKept gauge)

theorem takeArmStatus_busKept (h : BusKept s t) : BusKept s (takeArmStatus st arm x t) := by
  have emptied : BusKept s (setLoaded st arm false (reelEmptied st arm t).1) :=
    (reelEmptied_busKept h).of_bus (setLoaded_bus ..)
  unfold takeArmStatus
  split
  · exact h
  · unfold armReportedEmpty
    dsimp only
    split
    · exact takeHardError_busKept emptied
    · exact emptied

theorem endRunOf_sameOrders (n : Nat) : SameOrders s (endRunOf st n s) where
  rows := by unfold endRunOf; split <;> simp
  schedules := by unfold endRunOf; split <;> simp
  sequencers := by unfold endRunOf; split <;> simp
  settings := (endRunOf_keeps (.refl s)).settings

theorem endRunOf_reels (n : Nat) : (endRunOf st n s).reels = s.reels := by
  unfold endRunOf; split <;> simp

/-- The removal of a record that no order holds (R38). -/
theorem reelEmptied_quiet (hi : boundSlot s st arm = some i) (hr : vget s.reels i = some r)
    (h : r.state = .expired ∨ r.tag = none ∧ r.state ≠ .committed ∧ r.state ≠ .running) :
    (reelEmptied st arm s).2 = false ∧ SameOrders s (reelEmptied st arm s).1 ∧
      ∃ y, Removed r y ∧ (reelEmptied st arm s).1.reels = vset s.reels i y := by
  have slot : vget (withdrawGauge st arm s).reels i = some r := hr
  have unbound : r.tag = none → reelEmptied st arm s = (endRunOf st r.reel
      (setReel (withdrawGauge st arm s) i (some (unboundRecord r))), false) →
      (reelEmptied st arm s).2 = false ∧ SameOrders s (reelEmptied st arm s).1 ∧
      ∃ y, Removed r y ∧ (reelEmptied st arm s).1.reels = vset s.reels i y := by
    intro ht e
    rw [e]
    refine ⟨rfl, SameOrders.trans (t := setReel (withdrawGauge st arm s) i (some (unboundRecord r)))
      ⟨rfl, rfl, rfl, rfl⟩ (endRunOf_sameOrders _), _, .inr ⟨ht, rfl⟩, ?_⟩
    rw [endRunOf_reels]
    rfl
  cases hs : r.state with
  | expired =>
    simp only [reelEmptied, hi, hr, hs, true_and]
    exact ⟨⟨rfl, rfl, rfl, rfl⟩, none, .inl ⟨hs, rfl⟩, rfl⟩
  | committed | running => simp [hs] at h
  | staged | mounted | prepared | ready =>
    have ht : r.tag = none := by simpa [hs] using h
    refine unbound ht ?_
    simp only [reelEmptied, hi, hr, hs, ht, newReelRemoved, Option.bind_none]

theorem setLoaded_stands (st : StandId) (arm : Arm) (b : Bool) (s : State) :
    (setLoaded st arm b s).stands = vset s.stands st { vget s.stands st with
      loaded := armSet (vget s.stands st).loaded arm b } := rfl

theorem setLoaded_quiet (b : Bool) : ArmQuiet st arm s (setLoaded st arm b s) where
  orders := ⟨rfl, rfl, rfl, rfl⟩
  tagged := .of_reels rfl
  condition := by simp [setLoaded_stands]
  others _ _ := boundReel_congr rfl _ _

theorem takeArmStatus_quiet (h : Removable s st arm x) : ArmQuiet st arm s (takeArmStatus st arm x s) := by
  unfold takeArmStatus
  split
  · exact setLoaded_quiet x.loaded
  · next hx =>
    have unloaded : x.loaded = false ∧ boundSlot s st arm ≠ none := by simpa using hx
    obtain ⟨hl, hb⟩ := unloaded
    obtain ⟨i, hi⟩ := Option.ne_none_iff_exists'.1 hb
    obtain ⟨r, hr, -, ha⟩ := boundSlot_some hi
    have bound : boundReel s st arm = some r := by simp [boundReel, hi, hr]
    obtain ⟨hf, orders, y, hy, reels⟩ := reelEmptied_quiet hi hr ((h r bound).resolve_left (by simp [hl]))
    have quiet := setLoaded_quiet (s := (reelEmptied st arm s).1) (st := st) (arm := arm) false
    simp only [armReportedEmpty, hf, Bool.false_eq_true, if_false]
    exact {
      orders := orders.trans quiet.orders
      tagged := taggedKept_of_removed hr hy reels
      condition := by rw [quiet.condition, reelEmptied_stands]
      others := fun arm' ne => (quiet.others arm' ne).trans (boundReel_of_removed hr ha ne hy reels) }

/-- What a STATUS arm leaves of the stand contexts, and the loaded flag that it sets. -/
theorem takeArmStatus_stand (st : StandId) (arm : Arm) (x : ArmStatus) (s : State) :
    OnlyAt st s.stands (takeArmStatus st arm x s).stands ∧
      (vget (takeArmStatus st arm x s).stands st).map = (vget s.stands st).map ∧
      (vget (takeArmStatus st arm x s).stands st).outcome = (vget s.stands st).outcome ∧
      (vget (takeArmStatus st arm x s).stands st).loaded =
        armSet (vget s.stands st).loaded arm x.loaded := by
  have set : ∀ u : State, u.stands = s.stands → ∀ b,
      OnlyAt st s.stands (setLoaded st arm b u).stands ∧
      (vget (setLoaded st arm b u).stands st).map = (vget s.stands st).map ∧
      (vget (setLoaded st arm b u).stands st).outcome = (vget s.stands st).outcome ∧
      (vget (setLoaded st arm b u).stands st).loaded = armSet (vget s.stands st).loaded arm b := by
    intro u hu b
    rw [setLoaded_stands, hu]
    simp +contextual [OnlyAt, vget_vset_ne]
  unfold takeArmStatus
  split
  · exact set s rfl x.loaded
  · next hx =>
    have unloaded : x.loaded = false := by simp_all
    obtain ⟨only, hm, ho, hl⟩ := set _ (reelEmptied_stands st arm s) false
    rw [unloaded]
    unfold armReportedEmpty
    dsimp only
    split
    · obtain ⟨only', hm', hl', ho'⟩ := takeHardError_contextHeld st .armFault
        (setLoaded st arm false (reelEmptied st arm s).1)
      exact ⟨fun j hj => (only' j hj).trans (only j hj), hm'.trans hm, ho'.trans ho, hl'.trans hl⟩
    · exact ⟨only, hm, ho, hl⟩

end ArmStatus

/-! ## A STATUS response -/

section Status

variable {s t : State} {st : StandId} {a b c : ArmStatus}

/-- The state in which a STATUS response reports its arms (R157). -/
def statusBase (st : StandId) (m : PerArm SpiderPos) (s : State) : State :=
  if wellMade m then adoptMap st m s else s

/-- The three arms of a STATUS response, one after another. -/
def statusArms (st : StandId) (a b c : ArmStatus) (s : State) : State :=
  takeArmStatus st .c c (takeArmStatus st .b b (takeArmStatus st .a a
    (statusBase st ⟨a.position, b.position, c.position⟩ s)))

/-- The outcome of a STATUS response (R157). -/
def statusOutcome (a b c : ArmStatus) : LastOutcome :=
  if wellMade ⟨a.position, b.position, c.position⟩ then .statusDone else .statusBadMap

theorem takeStatus_eq : takeStatus st a b c s =
    if wellMade ⟨a.position, b.position, c.position⟩ && movesNewArm st ⟨a.position, b.position, c.position⟩
        (writeOutcome st (statusOutcome a b c) (statusArms st a b c s))
      then takeHardError st .indexMismatch (writeOutcome st (statusOutcome a b c) (statusArms st a b c s))
      else writeOutcome st (statusOutcome a b c) (statusArms st a b c s) := rfl

theorem statusArms_stand : OnlyAt st s.stands (statusArms st a b c s).stands ∧
    (vget (statusArms st a b c s).stands st).map =
      (if wellMade ⟨a.position, b.position, c.position⟩ then some ⟨a.position, b.position, c.position⟩
        else (vget s.stands st).map) ∧
    (vget (statusArms st a b c s).stands st).loaded = ⟨a.loaded, b.loaded, c.loaded⟩ := by
  have base : OnlyAt st s.stands (statusBase st ⟨a.position, b.position, c.position⟩ s).stands ∧
      (vget (statusBase st ⟨a.position, b.position, c.position⟩ s).stands st).map =
        (if wellMade ⟨a.position, b.position, c.position⟩ then some ⟨a.position, b.position, c.position⟩
          else (vget s.stands st).map) := by
    unfold statusBase
    split
    · simp +contextual [OnlyAt, adoptMap_stands, vget_vset_ne]
    · exact ⟨fun _ _ => rfl, rfl⟩
  obtain ⟨only, hm⟩ := base
  unfold statusArms
  generalize statusBase st ⟨a.position, b.position, c.position⟩ s = u at only hm ⊢
  obtain ⟨oa, ma, -, la⟩ := takeArmStatus_stand st .a a u
  generalize takeArmStatus st .a a u = v at oa ma la ⊢
  obtain ⟨ob, mb, -, lb⟩ := takeArmStatus_stand st .b b v
  generalize takeArmStatus st .b b v = w at ob mb lb ⊢
  obtain ⟨oc, mc, -, lc⟩ := takeArmStatus_stand st .c c w
  refine ⟨fun j hj => (oc j hj).trans ((ob j hj).trans ((oa j hj).trans (only j hj))),
    mc.trans (mb.trans (ma.trans hm)), ?_⟩
  rw [lc, lb, la]
  rfl

/-- The outcome, the map and the loaded flags of a STATUS response stand after any fault it causes. -/
theorem takeStatus_stand : OnlyAt st s.stands (takeStatus st a b c s).stands ∧
    (vget (takeStatus st a b c s).stands st).map =
      (if wellMade ⟨a.position, b.position, c.position⟩ then some ⟨a.position, b.position, c.position⟩
        else (vget s.stands st).map) ∧
    (vget (takeStatus st a b c s).stands st).loaded = ⟨a.loaded, b.loaded, c.loaded⟩ ∧
    (vget (takeStatus st a b c s).stands st).outcome = statusOutcome a b c := by
  obtain ⟨only, hm, hl⟩ := statusArms_stand (s := s) (st := st) (a := a) (b := b) (c := c)
  have written : OnlyAt st s.stands (writeOutcome st (statusOutcome a b c) (statusArms st a b c s)).stands ∧
      (vget (writeOutcome st (statusOutcome a b c) (statusArms st a b c s)).stands st).map =
        (if wellMade ⟨a.position, b.position, c.position⟩ then some ⟨a.position, b.position, c.position⟩
          else (vget s.stands st).map) ∧
      (vget (writeOutcome st (statusOutcome a b c) (statusArms st a b c s)).stands st).loaded =
        ⟨a.loaded, b.loaded, c.loaded⟩ ∧
      (vget (writeOutcome st (statusOutcome a b c) (statusArms st a b c s)).stands st).outcome =
        statusOutcome a b c := by
    rw [writeOutcome_stands]
    refine ⟨fun j hj => (vget_vset_ne _ _ _ _ hj).trans (only j hj), ?_, ?_, ?_⟩ <;>
      rw [vget_vset_self]
    · exact hm
    · exact hl
  rw [takeStatus_eq]
  split
  · obtain ⟨only', hm', hl', ho'⟩ := takeHardError_contextHeld st .indexMismatch
      (writeOutcome st (statusOutcome a b c) (statusArms st a b c s))
    obtain ⟨only, hm, hl, ho⟩ := written
    exact ⟨fun j hj => (only' j hj).trans (only j hj), hm'.trans hm, hl'.trans hl, ho'.trans ho⟩
  · exact written

theorem statusBase_arms : (statusBase st ⟨a.position, b.position, c.position⟩ s).arms =
    if wellMade ⟨a.position, b.position, c.position⟩ then (clearTapeCounts st s).arms else s.arms := by
  unfold statusBase
  split
  · exact adoptMap_arms ..
  · rfl

theorem takeStatus_arms : (takeStatus st a b c s).arms =
    if wellMade ⟨a.position, b.position, c.position⟩ then (clearTapeCounts st s).arms else s.arms := by
  rw [takeStatus_eq, ← statusBase_arms]
  split <;> simp [statusArms]

theorem takeStatus_busKept (h : BusKept t s) : BusKept t (takeStatus st a b c s) := by
  have base : BusKept t (statusBase st ⟨a.position, b.position, c.position⟩ s) := by
    unfold statusBase
    split
    · exact adoptMap_busKept st _ s h
    · exact h
  have written : BusKept t (writeOutcome st (statusOutcome a b c) (statusArms st a b c s)) :=
    (takeArmStatus_busKept (takeArmStatus_busKept (takeArmStatus_busKept base))).of_bus
      (writeOutcome_bus ..)
  rw [takeStatus_eq]
  split
  · exact takeHardError_busKept written
  · exact written

theorem TaggedKept.trans {u : State} (h : TaggedKept s t) (k : TaggedKept t u) : TaggedKept s u :=
  fun n r hr ht he => k n r (h n r hr ht he) ht he

/-- A STATUS response whose emptied arms carry no record of an order leaves the orders, their records and the
stand's condition (R37, R38). -/
theorem statusArms_quiet (h : ∀ arm, Removable s st arm (armGet (⟨a, b, c⟩ : PerArm ArmStatus) arm)) :
    SameOrders s (statusArms st a b c s) ∧ TaggedKept s (statusArms st a b c s) ∧
      (vget (statusArms st a b c s).stands st).condition = (vget s.stands st).condition := by
  have base : SameOrders s (statusBase st ⟨a.position, b.position, c.position⟩ s) ∧
      (statusBase st ⟨a.position, b.position, c.position⟩ s).reels = s.reels ∧
      (vget (statusBase st ⟨a.position, b.position, c.position⟩ s).stands st).condition =
        (vget s.stands st).condition := by
    unfold statusBase
    split
    · exact ⟨adoptMap_sameOrders .., adoptMap_reels .., by simp [adoptMap_stands]⟩
    · exact ⟨⟨rfl, rfl, rfl, rfl⟩, rfl, rfl⟩
  obtain ⟨orders, reels, cond⟩ := base
  unfold statusArms
  generalize statusBase st ⟨a.position, b.position, c.position⟩ s = u at orders reels cond ⊢
  have bound : ∀ arm, boundReel u st arm = boundReel s st arm := boundReel_congr reels st
  have qa := takeArmStatus_quiet (s := u) (st := st) (arm := .a) (x := a)
    fun r hr => h .a r (by rw [← bound]; exact hr)
  generalize takeArmStatus st .a a u = v at qa ⊢
  have qb := takeArmStatus_quiet (s := v) (st := st) (arm := .b) (x := b)
    fun r hr => h .b r (by rw [← bound, ← qa.others .b (by simp)]; exact hr)
  generalize takeArmStatus st .b b v = w at qb ⊢
  have qc := takeArmStatus_quiet (s := w) (st := st) (arm := .c) (x := c)
    fun r hr => h .c r (by
      rw [← bound, ← qa.others .c (by simp), ← qb.others .c (by simp)]; exact hr)
  exact ⟨((orders.trans qa.orders).trans qb.orders).trans qc.orders,
    (((TaggedKept.of_reels reels).trans qa.tagged).trans qb.tagged).trans qc.tagged,
    qc.condition.trans (qb.condition.trans (qa.condition.trans cond))⟩

theorem writeOutcome_sameOrders (st : StandId) (o : LastOutcome) (s : State) :
    SameOrders s (writeOutcome st o s) :=
  ⟨by simp, by simp, by simp, (writeOutcome_keeps (.refl s)).settings⟩

/-- A map that shows the new arm of an order before its paste boundary away from SPLICE moves it (R157). -/
theorem movesNewArm_of_before {m : PerArm SpiderPos} {k : RowId} {row : OrderRow}
    (hk : openRow s st = some k) (hr : vget s.rows k = some row) (hm : armGet m row.newArm ≠ .splice)
    (hp : ¬ pastBoundary s st row) : movesNewArm st m s = true := by
  obtain ⟨hst, ho⟩ := openRow_some hk hr
  have before : row.state.waiting = true ∨ abortable s row = true := by
    cases hw : row.state.waiting with
    | true => exact .inl rfl
    | false => exact .inr (abortable_of_before hst ho hp hw)
  rcases before with h | h <;> simp [movesNewArm, hk, hr, hm, h]

end Status

/-! ## A mismatch of an ONLINE stand (R157, R161, R163) -/

/-- INDEX_MISMATCH on an ONLINE stand, in a state that the report has left with the same orders. -/
theorem indexMismatch_faults {s u : State} {st : StandId} (orders : SameOrders s u) (tagged : TaggedKept s u)
    (ho : (vget u.stands st).condition = .online) :
    OutOfService st .fault s (arbitrate (endGrant st (takeHardError st .indexMismatch u))) ∧
      (vget (arbitrate (endGrant st (takeHardError st .indexMismatch u))).stands st).errors.indexMismatch =
        true ∧
      OrderFaulted st .standFault s (arbitrate (endGrant st (takeHardError st .indexMismatch u))) ∧
      NewReelReturned st s (arbitrate (endGrant st (takeHardError st .indexMismatch u))) :=
  ⟨orders.outOfService (takeHardError_outOfService ho),
    by rw [arbitrate_stands, endGrant_stands, takeHardError_stand ho]; rfl,
    orders.orderFaulted (takeHardError_orderFaulted ho),
    orders.newReelReturned tagged (takeHardError_newReelReturned ho)⟩

/-! ## INDEX DONE -/

section IndexDone

variable {s t : State} {st : StandId} {m : PerArm SpiderPos}

/-- The state in which INDEX DONE with a well-made map is judged (R161). -/
def indexAdopted (st : StandId) (m : PerArm SpiderPos) (s : State) : State :=
  startAtSplice st (adoptMap st m s)

theorem takeIndexDone_notMade (h : wellMade m = false) : takeIndexDone st m s =
    takeHardError st .indexMismatch (writeOutcome st .indexMismatch s) := by
  simp [takeIndexDone, h]

theorem takeIndexDone_rotated (h : wellMade m = true)
    (hr : ∀ old, (vget s.stands st).map = some old → rotated old = m) :
    takeIndexDone st m s = writeOutcome st .indexDone (indexAdopted st m s) := by
  cases e : (vget s.stands st).map with
  | none => simp [takeIndexDone, h, e, indexAdopted]
  | some old => simp [takeIndexDone, h, e, hr old e, indexAdopted]

theorem takeIndexDone_moved {old : PerArm SpiderPos} (h : wellMade m = true)
    (ho : (vget s.stands st).map = some old) (hr : rotated old ≠ m) :
    takeIndexDone st m s =
      takeHardError st .indexMismatch (writeOutcome st .indexMismatch (indexAdopted st m s)) := by
  simp [takeIndexDone, h, ho, Ne.symm hr, indexAdopted]

theorem indexAdopted_stands : (indexAdopted st m s).stands =
    vset s.stands st { vget s.stands st with map := some m } := by
  rw [indexAdopted, startAtSplice_stands, adoptMap_stands]

theorem indexAdopted_arms : (indexAdopted st m s).arms = (clearTapeCounts st s).arms := by
  rw [indexAdopted, startAtSplice_arms, adoptMap_arms]

theorem indexAdopted_sameOrders : SameOrders s (indexAdopted st m s) :=
  (adoptMap_sameOrders st m s).trans ⟨startAtSplice_rows .., startAtSplice_schedules ..,
    startAtSplice_sequencers .., (startAtSplice_keeps (.refl _)).settings⟩

theorem indexAdopted_reels : (indexAdopted st m s).reels = s.reels := by
  rw [indexAdopted, startAtSplice_reels, adoptMap_reels]

theorem indexAdopted_busKept (h : BusKept t s) : BusKept t (indexAdopted st m s) :=
  startAtSplice_busKept (adoptMap_busKept st m s h)

/-- INDEX DONE is judged in the state as it stands, or with its map adopted. -/
theorem takeIndexDone_cases (st : StandId) (m : PerArm SpiderPos) (s : State) :
    (wellMade m = false ∧ takeIndexDone st m s =
      takeHardError st .indexMismatch (writeOutcome st .indexMismatch s)) ∨
    (wellMade m = true ∧ (takeIndexDone st m s = writeOutcome st .indexDone (indexAdopted st m s) ∨
      takeIndexDone st m s =
        takeHardError st .indexMismatch (writeOutcome st .indexMismatch (indexAdopted st m s)))) := by
  cases hm : wellMade m with
  | false => exact .inl ⟨rfl, takeIndexDone_notMade hm⟩
  | true =>
    refine .inr ⟨rfl, ?_⟩
    by_cases hr : ∀ old, (vget s.stands st).map = some old → rotated old = m
    · exact .inl (takeIndexDone_rotated hm hr)
    · obtain ⟨old, ho⟩ := not_forall.1 hr
      obtain ⟨ho, hne⟩ := Classical.not_imp.1 ho
      exact .inr (takeIndexDone_moved hm ho hne)

theorem takeIndexDone_busKept (h : BusKept t s) : BusKept t (takeIndexDone st m s) := by
  have written : ∀ o u, BusKept t u → BusKept t (writeOutcome st o u) := fun o u hu =>
    hu.of_bus (writeOutcome_bus ..)
  rcases takeIndexDone_cases st m s with ⟨-, e⟩ | ⟨-, e | e⟩ <;> rw [e]
  · exact takeHardError_busKept (written _ _ h)
  · exact written _ _ (indexAdopted_busKept h)
  · exact takeHardError_busKept (written _ _ (indexAdopted_busKept h))

/-- A well-made map is adopted, and the tape counts cleared (R11, R161). -/
theorem takeIndexDone_adopts (h : wellMade m = true) :
    (vget (takeIndexDone st m s).stands st).map = some m ∧
      (takeIndexDone st m s).arms = (clearTapeCounts st s).arms := by
  have written : ∀ o, (vget (writeOutcome st o (indexAdopted st m s)).stands st).map = some m ∧
      (writeOutcome st o (indexAdopted st m s)).arms = (clearTapeCounts st s).arms := fun o => by
    rw [writeOutcome_stands, writeOutcome_arms, indexAdopted_stands, indexAdopted_arms]
    simp
  rcases takeIndexDone_cases st m s with ⟨hm, -⟩ | ⟨-, e | e⟩
  · rw [h] at hm; cases hm
  · rw [e]; exact written _
  · obtain ⟨-, hm, -⟩ := takeHardError_contextHeld st .indexMismatch
      (writeOutcome st .indexMismatch (indexAdopted st m s))
    rw [e, hm, takeHardError_arms]
    exact written _

/-- The run of the PREPARED record that the map brings to SPLICE starts (R24). -/
theorem indexAdopted_starts {arm : Arm} {r : ReelRecord} (h : wellMade m = true)
    (ho : (vget s.stands st).condition = .online) (ha : armGet m arm = .splice)
    (hb : boundReel s st arm = some r) (hs : r.state = .prepared) (hv : r.verify = .untested)
    (hx : ∀ v, vget s.verifies st = some v → v.arm ≠ arm) :
    indexAdopted st m s = startRun st r.reel arm (adoptMap st m s) := by
  obtain ⟨hst, harm⟩ := boundReel_some hb
  have position : ∀ x, armPosition (adoptMap st m s) st x = some (armGet m x) := fun x => by
    simp [armPosition, adoptMap_stands]
  have splice : spliceArm (adoptMap st m s) st = some arm := by
    have only : ∀ x, (armPosition (adoptMap st m s) st x == some .splice) = (x == arm) := fun x => by
      rw [position, Bool.eq_iff_iff, beq_iff_eq, beq_iff_eq, Option.some.injEq]
      exact ⟨fun e => wellMade_inj h (e.trans ha.symm), fun e => e ▸ ha⟩
    simp only [spliceArm, only]
    cases arm <;> rfl
  have bound : boundReel (adoptMap st m s) st arm = some r :=
    (boundReel_congr (adoptMap_reels st m s) st arm).trans hb
  have online : isOnline (adoptMap st m s) st = true := by simp [isOnline, adoptMap_stands, ho]
  subst hst
  have start : mayStart (adoptMap r.stand m s) r = some arm := by
    simp [mayStart, harm, Option.filter, hs, position, ha, online, adoptMap_verifies h ha hx]
  simp [indexAdopted, startAtSplice, splice, bound, hv, startIfDue, start]

/-- The judgement that a map is no rotation of the one held, or is not well made. -/
theorem takeIndexDone_mismatch (h : wellMade m = false ∨
      ∃ old, (vget s.stands st).map = some old ∧ rotated old ≠ m) :
    ∃ u, takeIndexDone st m s = takeHardError st .indexMismatch (writeOutcome st .indexMismatch u) ∧
      SameOrders s u ∧ u.reels = s.reels ∧
      (vget u.stands st).condition = (vget s.stands st).condition := by
  cases hm : wellMade m with
  | false => exact ⟨s, takeIndexDone_notMade hm, ⟨rfl, rfl, rfl, rfl⟩, rfl, rfl⟩
  | true =>
    obtain ⟨old, ho, hr⟩ := h.resolve_left (by simp [hm])
    exact ⟨_, takeIndexDone_moved hm ho hr, indexAdopted_sameOrders, indexAdopted_reels, by
      simp [indexAdopted_stands]⟩

end IndexDone
end Sys2Proof.Machine
end

section
/-! The statement on INDEX DONE and the STATUS response, of the two reports on a grant. -/

namespace Sys2Proof.Machine

open Sys2Proof

section Reports

variable {s : State} {st : StandId}

/-- The state in which a STATUS response for an outstanding read is taken (R144). -/
def statusTaken (st : StandId) (a b c : ArmStatus) (s : State) : State :=
  takeStatus st a b c (closeRead st .status s)

/-- The state in which INDEX DONE for an open index record is taken (R145). -/
def indexTaken (st : StandId) (m : PerArm SpiderPos) (s : State) : State :=
  takeIndexDone st m (setIndexRecord st none s)

theorem exec_status {a b c : ArmStatus} {o : OutstandingRead} (hg : granted s st = true)
    (ho : (vget s.bus.reads st).find? (fun x => x.read == .status) = some o) :
    exec (.response st (.status a b c)) s = .next (arbitrate (endGrant st (statusTaken st a b c s))) := by
  have taken : takeResponse st (.status a b c) s = statusTaken st a b c s := by
    have found : (vget s.bus.reads st).find? (readIs .status) = some o := ho
    simp only [takeResponse, found, statusTaken]
  rw [exec, execResponse, onGrant, if_pos hg, taken]

theorem exec_indexDone {x y z : SpiderPos} {e : Nat} (hg : granted s st = true)
    (he : vget s.bus.indexes st = some e) :
    exec (.indexDone st x y z) s = .next (arbitrate (endGrant st (indexTaken st ⟨x, y, z⟩ s))) := by
  simp [exec, execIndexDone, onGrant, hg, he, indexTaken]

/-- No read of STATUS is outstanding after the response, and no other is opened (R144). -/
theorem statusTaken_reads (a b c : ArmStatus) :
    ∀ x ∈ vget (arbitrate (endGrant st (statusTaken st a b c s))).bus.reads st,
      x ∈ vget s.bus.reads st ∧ x.read ≠ .status := by
  intro x hx
  have kept : BusKept (closeRead st .status s) (arbitrate (endGrant st (statusTaken st a b c s))) :=
    arbitrate_busKept (endGrant_busKept (takeStatus_busKept (.refl _)))
  have left := kept.2 st x hx
  simp only [closeRead, setBus_bus, vget_vset_self] at left
  obtain ⟨hm, hr⟩ := List.mem_filter.1 left
  exact ⟨hm, by simpa [readIs] using hr⟩

theorem indexTaken_indexes (m : PerArm SpiderPos) :
    vget (arbitrate (endGrant st (indexTaken st m s))).bus.indexes st = none := by
  have kept : BusKept (setIndexRecord st none s) (arbitrate (endGrant st (indexTaken st m s))) :=
    arbitrate_busKept (endGrant_busKept (takeIndexDone_busKept (.refl _)))
  rw [kept.1]
  exact vget_vset_self ..

theorem statusTaken_onlyIn (a b c : ArmStatus) :
    OnlyIn [.arms, .reels, .verifies, .trackers, .rows, .schedules, .sequencers, .bus, .stands, .port]
      s (arbitrate (endGrant st (statusTaken st a b c s))) := by
  refine (arbitrate_keeps (endGrant_keeps (takeStatus_keeps (closeRead_keeps (.refl s))))).onlyIn
    fun k hk hm => ?_
  cases k
  case outputs =>
    exact (arbitrate_outputs _).trans ((endGrant_outputs ..).trans (takeStatus_outputs ..))
  all_goals simp at hk hm

theorem indexTaken_onlyIn (m : PerArm SpiderPos) :
    OnlyIn [.arms, .reels, .verifies, .rows, .schedules, .sequencers, .bus, .stands, .port]
      s (arbitrate (endGrant st (indexTaken st m s))) := by
  refine (arbitrate_keeps (endGrant_keeps (takeIndexDone_keeps (setIndexRecord_keeps (.refl s))))).onlyIn
    fun k hk hm => ?_
  cases k
  case outputs =>
    exact (arbitrate_outputs _).trans ((endGrant_outputs ..).trans (takeIndexDone_outputs ..))
  case trackers =>
    exact (arbitrate_trackers _).trans ((endGrant_trackers ..).trans (takeIndexDone_trackers ..))
  all_goals simp at hk hm

/-- A STATUS map that moves the new arm of an order before its paste boundary (R157). -/
theorem statusTaken_moves {a b c : ArmStatus} {k : RowId} {row : OrderRow}
    (hm : wellMade ⟨a.position, b.position, c.position⟩ = true)
    (ho : (vget s.stands st).condition = .online)
    (hq : ∀ arm, Removable s st arm (armGet (⟨a, b, c⟩ : PerArm ArmStatus) arm))
    (hk : openRow s st = some k) (hr : vget s.rows k = some row)
    (ha : (armGet (⟨a, b, c⟩ : PerArm ArmStatus) row.newArm).position ≠ .splice)
    (hp : ¬ pastBoundary s st row) :
    ∃ u, statusTaken st a b c s = takeHardError st .indexMismatch u ∧ SameOrders s u ∧ TaggedKept s u ∧
      (vget u.stands st).condition = .online := by
  obtain ⟨orders, tagged, cond⟩ := statusArms_quiet (s := closeRead st .status s) (st := st) (a := a)
    (b := b) (c := c) fun arm r hb => hq arm r (by rw [← boundReel_congr (s := s) rfl]; exact hb)
  have same : SameOrders s (writeOutcome st (statusOutcome a b c)
      (statusArms st a b c (closeRead st .status s))) :=
    SameOrders.trans (t := closeRead st .status s) ⟨rfl, rfl, rfl, rfl⟩
      (orders.trans (writeOutcome_sameOrders ..))
  have away : armGet (⟨a.position, b.position, c.position⟩ : PerArm SpiderPos) row.newArm ≠ .splice := by
    cases e : row.newArm <;> rw [e] at ha <;> exact ha
  have moves := movesNewArm_of_before (same.openRow_eq.trans hk) (by rw [same.rows]; exact hr) away
    (mt (same.pastBoundary_iff row).1 hp)
  refine ⟨_, ?_, same, ?_, ?_⟩
  · rw [statusTaken, takeStatus_eq, if_pos (by rw [hm, moves]; rfl)]
  · exact ((TaggedKept.of_reels rfl).trans tagged).trans (.of_reels (writeOutcome_reels ..))
  · rw [writeOutcome_stands, vget_vset_self]
    exact cond.trans ho

theorem statusTaken_stand (a b c : ArmStatus) :
    OnlyAt st s.stands (arbitrate (endGrant st (statusTaken st a b c s))).stands ∧
    (vget (arbitrate (endGrant st (statusTaken st a b c s))).stands st).map =
      (if wellMade ⟨a.position, b.position, c.position⟩ then some ⟨a.position, b.position, c.position⟩
        else (vget s.stands st).map) ∧
    (vget (arbitrate (endGrant st (statusTaken st a b c s))).stands st).loaded =
      ⟨a.loaded, b.loaded, c.loaded⟩ ∧
    (vget (arbitrate (endGrant st (statusTaken st a b c s))).stands st).outcome = statusOutcome a b c := by
  rw [arbitrate_stands, endGrant_stands]
  exact takeStatus_stand (s := closeRead st .status s)

theorem statusTaken_arms (a b c : ArmStatus) :
    (arbitrate (endGrant st (statusTaken st a b c s))).arms =
      if wellMade ⟨a.position, b.position, c.position⟩ then (clearTapeCounts st s).arms else s.arms := by
  rw [arbitrate_arms, endGrant_arms]
  exact takeStatus_arms (s := closeRead st .status s)

theorem indexTaken_adopts {m : PerArm SpiderPos} (h : wellMade m = true) :
    (vget (arbitrate (endGrant st (indexTaken st m s))).stands st).map = some m ∧
      (arbitrate (endGrant st (indexTaken st m s))).arms = (clearTapeCounts st s).arms := by
  rw [arbitrate_stands, endGrant_stands, arbitrate_arms, endGrant_arms]
  exact takeIndexDone_adopts (s := setIndexRecord st none s) h

/-- The tape counts cleared, the marks kept (R11). -/
theorem armContext_of_cleared {t : State} (h : t.arms = (clearTapeCounts st s).arms) (arm : Arm) :
    armContext t st arm = { armContext s st arm with tapeCount := 0 } := by
  rw [← armContext_clearTapeCounts]
  simp only [armContext, h]

/-- A map that is the rotation of the one held: the outcome alone, and the run of the record at SPLICE. -/
theorem indexTaken_rotated {m : PerArm SpiderPos} (h : wellMade m = true)
    (hr : ∀ old, (vget s.stands st).map = some old → rotated old = m) :
    indexTaken st m s = writeOutcome st .indexDone (indexAdopted st m (setIndexRecord st none s)) :=
  takeIndexDone_rotated (s := setIndexRecord st none s) h hr

theorem indexTaken_rotated_stand {m : PerArm SpiderPos} (h : wellMade m = true)
    (hr : ∀ old, (vget s.stands st).map = some old → rotated old = m) :
    vget (arbitrate (endGrant st (indexTaken st m s))).stands st =
      { vget s.stands st with map := some m, outcome := .indexDone } := by
  rw [arbitrate_stands, endGrant_stands, indexTaken_rotated h hr, writeOutcome_stands, vget_vset_self,
    indexAdopted_stands, vget_vset_self]
  rfl

theorem indexTaken_starts {m : PerArm SpiderPos} {arm : Arm} {r : ReelRecord} (h : wellMade m = true)
    (hold : ∀ old, (vget s.stands st).map = some old → rotated old = m)
    (ho : (vget s.stands st).condition = .online) (ha : armGet m arm = .splice)
    (hb : boundReel s st arm = some r) (hs : r.state = .prepared) (hv : r.verify = .untested)
    (hx : ∀ v, vget s.verifies st = some v → v.arm ≠ arm) :
    vget (arbitrate (endGrant st (indexTaken st m s))).verifies st = some ⟨r.reel, arm, none⟩ ∧
      Asked st ⟨.verify, some arm, none, none⟩ (arbitrate (endGrant st (indexTaken st m s))) := by
  have bound : boundReel (setIndexRecord st none s) st arm = some r :=
    (boundReel_congr (s := s) rfl st arm).trans hb
  rw [indexTaken_rotated h hold,
    indexAdopted_starts (s := setIndexRecord st none s) h ho ha bound hs hv hx]
  refine ⟨?_, asked_of_queued st ?_⟩
  · rw [arbitrate_verifies, endGrant_verifies, writeOutcome_verifies, startRun, queueRequest_verifies,
      setVerify_verifies, vget_vset_self]
  · rw [writeOutcome_bus]
    exact mem_queueRequest_self ..

theorem wellMade_false {x y z : SpiderPos} (h : x = y ∨ y = z ∨ x = z) :
    wellMade ⟨x, y, z⟩ = false := by
  rcases h with rfl | rfl | rfl <;> simp [wellMade]

/-- A map that is not well made is not adopted (R161). -/
theorem indexTaken_map {m : PerArm SpiderPos} (h : wellMade m = false) :
    (vget (arbitrate (endGrant st (indexTaken st m s))).stands st).map = (vget s.stands st).map := by
  obtain ⟨-, kept, -⟩ := takeHardError_contextHeld st .indexMismatch
    (writeOutcome st .indexMismatch (setIndexRecord st none s))
  rw [arbitrate_stands, endGrant_stands, indexTaken, takeIndexDone_notMade h, kept, writeOutcome_stands,
    vget_vset_self]
  rfl

/-- A map that is not well made, or no rotation of the one held (R161). -/
theorem indexTaken_mismatch {m : PerArm SpiderPos} (h : wellMade m = false ∨
      ∃ old, (vget s.stands st).map = some old ∧ rotated old ≠ m) :
    ∃ u, indexTaken st m s = takeHardError st .indexMismatch u ∧ SameOrders s u ∧ TaggedKept s u ∧
      (vget u.stands st).outcome = .indexMismatch ∧
      (vget u.stands st).condition = (vget s.stands st).condition := by
  obtain ⟨u, e, orders, reels, cond⟩ := takeIndexDone_mismatch (s := setIndexRecord st none s) h
  refine ⟨_, e, ?_, .of_reels ((writeOutcome_reels ..).trans reels), ?_, ?_⟩
  · exact SameOrders.trans (t := setIndexRecord st none s) ⟨rfl, rfl, rfl, rfl⟩
      (orders.trans (writeOutcome_sameOrders ..))
  · rw [writeOutcome_stands, vget_vset_self]
  · rw [writeOutcome_stands, vget_vset_self]
    exact cond

end Reports

/-- Settles O43: each report ends the grant with its map adopted and judged; a mismatch on an ONLINE stand is the
hard error's event on the stand, its open order and the order's new reel. -/
theorem mapReports : Obligations.MapReports := by
  intro st s hg
  refine ⟨fun a b c o ho => ?_, fun x y z e he => ⟨_, exec_indexDone hg he, indexTaken_indexes _, ?_, ?_, ?_,
    ?_, indexTaken_onlyIn _⟩⟩
  · obtain ⟨only, hmap, hloaded, houtcome⟩ := statusTaken_stand (s := s) (st := st) a b c
    refine ⟨_, exec_status hg ho, statusTaken_reads a b c, hloaded, ?_, only, ?_, statusTaken_onlyIn a b c⟩
    · split
      · next hm =>
        have made : wellMade ⟨a.position, b.position, c.position⟩ = true := wellMade_iff.2 hm
        refine ⟨hmap.trans (if_pos made), houtcome.trans (if_pos made), fun arm => ?_⟩
        rw [armContext_of_cleared ((statusTaken_arms a b c).trans (if_pos made))]
      · next hm =>
        have notMade : ¬ wellMade ⟨a.position, b.position, c.position⟩ = true := mt wellMade_iff.1 hm
        exact ⟨hmap.trans (if_neg notMade), houtcome.trans (if_neg notMade),
          (statusTaken_arms a b c).trans (if_neg notMade)⟩
    · intro _ hab hbc hac online removable k row hk hrow ha hp
      obtain ⟨u, eq, orders, tagged, cond⟩ := statusTaken_moves (wellMade_iff.2 ⟨hab, hbc, hac⟩) online
        removable hk hrow ha hp
      rw [eq]
      exact indexMismatch_faults orders tagged cond
  · intro hxy hyz hxz
    obtain ⟨hmap, harms⟩ := indexTaken_adopts (s := s) (st := st) (m := ⟨x, y, z⟩)
      (wellMade_iff.2 ⟨hxy, hyz, hxz⟩)
    refine ⟨hmap, fun arm => ?_⟩
    rw [armContext_of_cleared harms]
    exact ⟨rfl, rfl⟩
  · intro hxy hyz hxz hold
    have made : wellMade ⟨x, y, z⟩ = true := wellMade_iff.2 ⟨hxy, hyz, hxz⟩
    rw [indexTaken_rotated_stand made hold]
    exact ⟨rfl, rfl, rfl, fun arm r online ha hb hs hv hx =>
      indexTaken_starts made hold online ha hb hs hv hx⟩
  · exact fun hm => indexTaken_map (wellMade_false hm)
  · intro hm
    obtain ⟨u, eq, orders, tagged, outcome, cond⟩ := indexTaken_mismatch (hm.imp_left wellMade_false)
    rw [eq]
    refine ⟨?_, fun online => indexMismatch_faults orders tagged (cond.trans online)⟩
    obtain ⟨-, -, -, kept⟩ := takeHardError_contextHeld st .indexMismatch u
    rw [arbitrate_stands, endGrant_stands]
    exact kept.trans outcome

end Sys2Proof.Machine
end

section
/-! What a command makes of the Reel Table and the Order Table (R16, R19, R35, R69, R70): all but six keep every
record in its slot and every order in its row; those six are taken one by one. -/

namespace Sys2Proof.Machine

open Sys2Proof

/-- Every slot and every row keep what a command that edits neither table leaves of them. -/
structure TablesKept (s t : State) : Prop where
  reels : ∀ i, RecordKept (vget s.reels i) (vget t.reels i)
  rows : ∀ r, RowKept (vget s.rows r) (vget t.rows r)

/-- A property of the Reel Table and the Order Table alone. -/
def OfTables (Q : State → Prop) : Prop := ∀ u v : State, v.reels = u.reels → v.rows = u.rows → Q u → Q v

/-- The state that a command leaves, if any, has a property. -/
def Leaves (Q : State → Prop) (x : Result) : Prop := ∀ t, x = .next t → Q t

theorem leaves_of_next {Q : State → Prop} {t : State} (h : Q t) : Leaves Q (.next t) :=
  fun _ e => by cases e; exact h

section Kept

variable {s t u : State}

theorem Keeps.tables (k : Keeps s t) : TablesKept s t := ⟨k.reels, k.rows⟩

theorem TablesKept.refl (s : State) : TablesKept s s := (Keeps.refl s).tables

theorem TablesKept.trans (h : TablesKept s t) (k : TablesKept t u) : TablesKept s u :=
  ⟨fun i => (h.reels i).trans (k.reels i), fun r => (h.rows r).trans (k.rows r)⟩

theorem TablesKept.keep (h : TablesKept s t) (k : Keeps t u) : TablesKept s u := h.trans k.tables

theorem tablesKept_ofTables (s : State) : OfTables (TablesKept s) :=
  fun _ _ hr hw h => ⟨fun i => by rw [hr]; exact h.reels i, fun r => by rw [hw]; exact h.rows r⟩

/-- Nothing is done to either table. -/
theorem TablesKept.of_same (hr : t.reels = s.reels) (hw : t.rows = s.rows) : TablesKept s t :=
  tablesKept_ofTables s s t hr hw (.refl s)

end Kept

/-! ## Console commands -/

section Console

variable {Q : State → Prop} {s : State} {body : State → State × Reply}

/-- A frame leaves the tables as they are or as its body leaves them. -/
theorem takeCommand_ofTables (hQ : OfTables Q) (hs : Q s) (k : FrameClass) (a c : Byte)
    (hb : ∀ u : State, u.reels = s.reels → u.rows = s.rows → Q (body u).1) :
    Q (takeCommand k a c body s) := by
  have run : (runAfter k s).reels = s.reels ∧ (runAfter k s).rows = s.rows := by cases k <;> exact ⟨rfl, rfl⟩
  unfold takeCommand
  split
  · exact hs
  · split
    · split
      · exact hs
      · exact hQ (body (runAfter k s)).1 _ rfl rfl (hb _ run.1 run.2)
    · split
      · exact hb _ run.1 run.2
      · exact hQ _ _ run.1 run.2 hs

theorem withLength_ofTables (hQ : OfTables Q) (hs : Q s) (n : Nat) (p : List Byte)
    (hb : ∀ u : State, u.reels = s.reels → u.rows = s.rows → Q (body u).1) (u : State)
    (hr : u.reels = s.reels) (hw : u.rows = s.rows) : Q (withLength n p body u).1 := by
  unfold withLength
  split
  · exact hb u hr hw
  · exact hQ _ _ hr hw hs

theorem answerCommand_ofTables (hQ : OfTables Q) (hs : Q s) (k : FrameClass) (a c : Byte)
    (hb : ∀ u : State, u.reels = s.reels → u.rows = s.rows → Q (body u).1) :
    Leaves Q (answerCommand k a c body s) := leaves_of_next (takeCommand_ofTables hQ hs k a c hb)

theorem answerAndSend_ofTables (hQ : OfTables Q) (hs : Q s) (k : FrameClass) (a c : Byte)
    (hb : ∀ u : State, u.reels = s.reels → u.rows = s.rows → Q (body u).1) :
    Leaves Q (answerAndSend k a c body s) :=
  leaves_of_next (hQ _ _ (arbitrate_reels _) (arbitrate_rows _) (takeCommand_ofTables hQ hs k a c hb))

/-- The body of a command keeps the tables. -/
def BodyKeeps (body : State → State × Reply) : Prop := ∀ u, TablesKept u (body u).1

theorem BodyKeeps.withLength (hb : BodyKeeps body) (n : Nat) (p : List Byte) :
    BodyKeeps (withLength n p body) :=
  fun u => withLength_ofTables (tablesKept_ofTables u) (.refl u) n p
    (fun v hr hw => (TablesKept.of_same hr hw).trans (hb v)) u rfl rfl

theorem BodyKeeps.answer (hb : BodyKeeps body) (k : FrameClass) (a c : Byte) (s : State) :
    Leaves (TablesKept s) (answerCommand k a c body s) :=
  answerCommand_ofTables (tablesKept_ofTables s) (.refl s) k a c
    fun u hr hw => (TablesKept.of_same hr hw).trans (hb u)

theorem BodyKeeps.send (hb : BodyKeeps body) (k : FrameClass) (a c : Byte) (s : State) :
    Leaves (TablesKept s) (answerAndSend k a c body s) :=
  answerAndSend_ofTables (tablesKept_ofTables s) (.refl s) k a c
    fun u hr hw => (TablesKept.of_same hr hw).trans (hb u)

theorem BodyKeeps.of_lookup (h : ∀ u, (body u).1 = u) : BodyKeeps body := fun u => by
  rw [h u]; exact .refl u

theorem mountReelBody_tables (p : List Byte) : BodyKeeps (mountReelBody p) := by
  intro u
  unfold mountReelBody
  (repeat' split) <;> try exact .refl u
  rename_i r hr _ _ _
  refine Keeps.tables (t := queueRequest _ _ _) (queueRequest_keeps (setReel_keeps (.refl u) ?_) rfl)
  exact some_recordKept hr ⟨rfl, rfl, rfl, rfl, rfl⟩

theorem preparedBody_tables (p : List Byte) : BodyKeeps (preparedBody p) := by
  intro u
  unfold preparedBody
  (repeat' split) <;> try exact .refl u
  rename_i r hr _ _
  refine Keeps.tables (t := declare _ _) (declare_keeps (setReel_keeps (.refl u) ?_))
  exact some_recordKept hr ⟨rfl, rfl, rfl, rfl, rfl⟩

theorem retireReelBody_tables (p : List Byte) : BodyKeeps (retireReelBody p) := by
  intro u
  unfold retireReelBody
  (repeat' split) <;> try exact .refl u
  exact (setReel_keeps (.refl u) (none_recordKept _)).tables

theorem threadReelBody_tables (p : List Byte) : BodyKeeps (threadReelBody p) := by
  intro u
  unfold threadReelBody
  (repeat' split) <;> try exact .refl u
  rename_i r hr _ _ _ arm _ _
  refine Keeps.tables (t := startTracker _ _ _ _ _)
    (startTracker_keeps (setArmContext_keeps (setReel_keeps (.refl u) ?_) (Nat.zero_le _)))
  exact some_recordKept hr ⟨rfl, rfl, rfl, rfl, rfl⟩

theorem stopReelBody_tables (p : List Byte) : BodyKeeps (stopReelBody p) := by
  intro u
  unfold stopReelBody
  dsimp only
  (repeat' split) <;> try exact .refl u
  rename_i r hr _ _
  refine Keeps.tables (t := cancelStopped _ _)
    (cancelStopped_keeps (stopTracker_keeps (setReel_keeps (.refl u) ?_)))
  exact some_recordKept hr ⟨rfl, rfl, rfl, rfl, rfl⟩

theorem withOrder_tables (p : List Byte) {f : RowId → OrderRow → State → State × Reply}
    (hf : ∀ i row u, vget u.rows i = some row → TablesKept u (f i row u).1) : BodyKeeps (withOrder p f) := by
  intro u
  unfold withOrder
  dsimp only
  (repeat' split) <;> try exact .refl u
  exact hf _ _ u ‹_›

theorem confirmBody_tables (p : List Byte) : BodyKeeps (confirmBody p) := by
  refine withOrder_tables p fun i row u hrow => ?_
  unfold confirmRow
  split
  · next hs =>
    refine Keeps.tables (t := setRow _ _ _) (setRow_keeps (.refl u) ?_)
    exact open_rowKept hrow (by rw [hs]; rfl) ⟨rfl, rfl, rfl, rfl, rfl⟩
  · next hs =>
    refine Keeps.tables (t := testOrder _ _) (testOrder_keeps (raiseRow_keeps (setRow_keeps (.refl u) ?_)))
    exact open_rowKept hrow (by rw [hs]; rfl) ⟨rfl, rfl, rfl, rfl, rfl⟩
  all_goals exact .refl u

theorem cancelOrderBody_tables (p : List Byte) : BodyKeeps (cancelOrderBody p) := by
  refine withOrder_tables p fun i row u _ => ?_
  unfold cancelRow
  split
  case h_1 | h_2 | h_3 | h_4 => exact (closeOrder_keeps (.refl u)).tables
  all_goals exact .refl u

theorem indexStandBody_tables (p : List Byte) : BodyKeeps (indexStandBody p) := by
  intro u
  unfold indexStandBody
  (repeat' split) <;> try exact .refl u
  exact .of_same rfl rfl

theorem settleCondition_tables (st : StandId) (u : State) : TablesKept u (settleCondition st u) := by
  have online : TablesKept u (goOnline st (vget u.bus.slots st) u) := by
    refine .of_same ?_ ?_ <;> simp [goOnline]
  have off : TablesKept u (modStand st (fun x => { x with condition := .offline }) u) := .of_same rfl rfl
  unfold settleCondition
  dsimp only
  split
  · exact online
  · split
    · exact off
    · exact off.keep (faultOrder_keeps (raiseStand_keeps (.refl _)))
    · exact off.keep (raiseStand_keeps (.refl _))
    · exact off.keep (raiseStand_keeps (.refl _))

theorem clearStandBody_tables (p : List Byte) : BodyKeeps (clearStandBody p) := by
  intro u
  unfold clearStandBody
  (repeat' split) <;> try exact .refl u
  exact (TablesKept.of_same rfl rfl : TablesKept u (clearContexts _ u)).trans (settleCondition_tables _ _)

theorem writeStand_tables (st : StandId) (i : Fin 14) (v : Nat) (u : State) :
    TablesKept u (writeStand st i v u).1 := by
  unfold writeStand
  dsimp only
  (repeat' split) <;> exact .of_same rfl rfl

theorem writeLine_tables (l : LineId) (i : Fin 4) (v : Nat) (u : State) :
    TablesKept u (writeLine l i v u) := by
  have store : TablesKept u (storeLine l i (clampTo (vget lineSpecs i) v) u) := .of_same rfl rfl
  exact store.keep (ite_keeps (evaluate_keeps (.refl _)) (.refl _))

theorem writeParam_tables (x : Target) (i v : Nat) (u : State) : TablesKept u (writeParam x i v u).1 := by
  unfold writeParam
  split <;> split
  · exact writeStand_tables ..
  · exact .refl u
  · exact writeLine_tables ..
  · exact .refl u

theorem writeRun_tables (x : Target) (i : Nat) (vs : List Nat) (u : State) :
    TablesKept u (writeRun x i vs u).1 := by
  induction vs generalizing i u with
  | nil => exact .refl u
  | cons v vs ih => exact (writeParam_tables x i v u).trans (ih (i + 1) _)

theorem setParameterBody_tables (p : List Byte) : BodyKeeps (setParameterBody p) := by
  intro u
  unfold setParameterBody
  split
  · exact .refl u
  · exact writeParam_tables ..

theorem parameterRunBody_tables (p : List Byte) : BodyKeeps (parameterRunBody p) := by
  intro u
  unfold parameterRunBody
  split <;> exact .of_same rfl rfl

theorem dataBody_tables (p : List Byte) : BodyKeeps (dataBody p) := by
  intro u
  unfold dataBody
  (repeat' split) <;> try exact .refl u
  exact (writeRun_tables _ _ _ u).trans (.of_same rfl rfl)

theorem scanModeBody_tables (p : List Byte) : BodyKeeps (scanModeBody p) := by
  intro u
  unfold scanModeBody takeScanMode
  dsimp only
  (repeat' split) <;> exact .of_same rfl rfl

end Console

/-! ## Events -/

section Events

variable {s : State}

theorem TablesKept.next {t u : State} (h : TablesKept s t) (k : Keeps t u) :
    Leaves (TablesKept s) (.next u) := leaves_of_next (h.keep k)

theorem reachTime_tables (n : Nat) (s : State) : TablesKept s (reachTime n s) := .of_same rfl rfl

theorem onGrant_tables (st : StandId) {f : State → State} (hf : ∀ u, Keeps u (f u)) (s : State) :
    Leaves (TablesKept s) (onGrant st f s) := by
  unfold onGrant
  split
  · exact (TablesKept.refl s).next (arbitrate_keeps (endGrant_keeps (hf s)))
  · exact leaves_of_next (.refl s)

theorem execRevolutionMark_tables (st : StandId) (arm : Arm) :
    Leaves (TablesKept s) (execRevolutionMark st arm s) := by
  obtain ⟨t, ht, hcase⟩ := exec_revolutionMark st arm s
  have kept : Keeps s (verifyMark st arm (closedTapes s st arm) (markDelivered st arm s)) :=
    verifyMark_keeps (markDelivered_keeps st arm s)
  rw [show execRevolutionMark st arm s = .next t from ht]
  rcases hcase with ⟨rfl, -⟩ | rfl
  · exact leaves_of_next kept.tables
  · exact leaves_of_next (arbitrate_keeps kept).tables

theorem execTapeMark_tables (st : StandId) : Leaves (TablesKept s) (execTapeMark st s) := by
  unfold execTapeMark
  split
  · exact leaves_of_next (.refl s)
  · next arm _ =>
    have counted : TablesKept s (setArmContext s st arm (tapeArm (armContext s st arm))) := .of_same rfl rfl
    exact counted.next (arbitrate_keeps (sequencerTape_keeps (.refl _)))

theorem handReadings_keeps {u : State} (h : Keeps s u) : Keeps s (handReadings u) :=
  foldl_keeps _ (fun _ _ => takeReading_keeps) _ h

theorem execScanEnd_tables (slots : Vector Byte 8) : Leaves (TablesKept s) (execScanEnd slots s) := by
  unfold execScanEnd
  split
  · have ended : TablesKept s (endScan slots s) := .of_same rfl rfl
    exact ended.next (arbitrate_keeps (handReadings_keeps (.refl _)))
  · exact leaves_of_next (.refl s)

theorem execStopHoldTimerEnd_tables (st : StandId) :
    Leaves (TablesKept s) (execStopHoldTimerEnd st s) := by
  unfold execStopHoldTimerEnd
  dsimp only
  split
  · exact leaves_of_next (.refl s)
  · next e _ =>
    split
    · next ho =>
      exact (reachTime_tables e s).next
        (arbitrate_keeps (leaveService_keeps (.refl _) (eq_of_beq ho) (by decide)))
    · exact leaves_of_next (.of_same rfl rfl)

theorem execAccept_tables (st : StandId) (k : RequestKind) (arm : Option Arm) :
    Leaves (TablesKept s) (execAccept st k arm s) := by
  unfold execAccept
  split
  · exact leaves_of_next (.refl s)
  · have freed : Keeps s (freePair s) := freePair_keeps (.refl s)
    exact (TablesKept.refl s).next (arbitrate_keeps (ite_keeps freed (acceptRequest_keeps freed)))

theorem execRefuse_tables (st : StandId) (k : RequestKind) (arm : Option Arm) (why : StandReason) :
    Leaves (TablesKept s) (execRefuse st k arm why s) := by
  unfold execRefuse
  split
  · exact leaves_of_next (.refl s)
  · have freed : Keeps s (freePair s) := freePair_keeps (.refl s)
    exact (TablesKept.refl s).next
      (arbitrate_keeps (ite_keeps freed (refuseRequest_keeps (writeRefusal_keeps freed))))

theorem execReplyTimeEnd_tables : Leaves (TablesKept s) (execReplyTimeEnd s) := by
  unfold execReplyTimeEnd
  split
  · exact (reachTime_tables _ s).next (arbitrate_keeps (takeHardError_keeps (freePair_keeps (.refl _))))
  · exact leaves_of_next (.refl s)

theorem execGrantLapse_tables : Leaves (TablesKept s) (execGrantLapse s) := by
  unfold execGrantLapse
  split
  · next lim _ =>
    have freed : Keeps (reachTime lim s) (freePair (reachTime lim s)) := freePair_keeps (.refl _)
    exact (reachTime_tables lim s).next (arbitrate_keeps
      (ite_keeps (setLapses_keeps freed) (takeHardError_keeps (setLapses_keeps freed))))
  · exact leaves_of_next (.refl s)

theorem execReadLimit_tables (st : StandId) (k : ReadKind) :
    Leaves (TablesKept s) (execReadLimit st k s) := by
  unfold execReadLimit
  split
  · exact leaves_of_next (.refl s)
  · cases k <;> exact (reachTime_tables _ s).next (writeOutcome_keeps (closeRead_keeps (.refl _)))

theorem execIndexTimeout_tables (st : StandId) : Leaves (TablesKept s) (execIndexTimeout st s) := by
  unfold execIndexTimeout
  split
  · exact leaves_of_next (.refl s)
  · exact (reachTime_tables _ s).next
      (arbitrate_keeps (takeHardError_keeps (writeOutcome_keeps (setIndexRecord_keeps (.refl _)))))

theorem execVerifyTimeout_tables (st : StandId) : Leaves (TablesKept s) (execVerifyTimeout st s) := by
  unfold execVerifyTimeout
  split
  · exact leaves_of_next (.refl s)
  · split
    · exact leaves_of_next (.refl s)
    · exact (reachTime_tables _ s).next
        (arbitrate_keeps (ite_keeps (repeatRun_keeps (.refl _)) (finishRun_keeps (.refl _))))

theorem execCutWaitEnd_tables (st : StandId) : Leaves (TablesKept s) (execCutWaitEnd st s) := by
  unfold execCutWaitEnd
  split
  · exact leaves_of_next (.refl s)
  · exact (reachTime_tables _ s).next
      (arbitrate_keeps (tryCloseDone_keeps (modSequencer_keeps (.refl _))))

theorem execRetractTimeout_tables (st : StandId) : Leaves (TablesKept s) (execRetractTimeout st s) := by
  unfold execRetractTimeout
  split
  · exact leaves_of_next (.refl s)
  · exact (reachTime_tables _ s).next (arbitrate_keeps (endRetractWait_keeps (.refl _)))

theorem execSpeedWindowEnd_tables (l : LineId) : Leaves (TablesKept s) (execSpeedWindowEnd l s) := by
  rw [show execSpeedWindowEnd l s = .next (arbitrate (windowEnded l s)) from exec_speedWindowEnd l s]
  have window : TablesKept s (windowState l s) :=
    .of_same (windowState_onlyIn l s .reels (by simp)) (windowState_rows l s)
  exact window.next (windowEnded_keeps l s)

end Events

/-! ## Every command -/

/-- The commands that enter or amend a record, make or release an order, or empty a table. -/
def editsTables : Instr → Bool
  | .powerOnReset _ | .enterReel .. | .amendReel .. | .orderSplice .. | .releaseOrder .. | .restart .. => true
  | _ => false

theorem exec_tables (c : Instr) (s : State) (hc : editsTables c = false) :
    Leaves (TablesKept s) (exec c s) := by
  cases c with
  | powerOnReset | enterReel | amendReel | orderSplice | releaseOrder | restart => cases hc
  | resetRelease =>
    refine fun t h => ?_
    simp only [exec, execResetRelease] at h
    split at h <;> cases h <;> exact .of_same rfl rfl
  | encoderPulse l =>
    have counted : TablesKept s (setLine s l (pulse (vget s.lines l))) := .of_same rfl rfl
    exact counted.next (arbitrate_keeps (reportLine_keeps (.refl _)))
  | speedWindowEnd l => exact execSpeedWindowEnd_tables l
  | commitPointReport r =>
    exact (TablesKept.refl s).next (arbitrate_keeps (reportCommitPoint_keeps (.refl s)))
  | latestCommitPointReport r =>
    exact (TablesKept.refl s).next (arbitrate_keeps (reportLatest_keeps (.refl s)))
  | matchDeadlineReport st =>
    exact (TablesKept.refl s).next (arbitrate_keeps (reportDeadline_keeps (.refl s)))
  | pastePositionReport st =>
    exact (TablesKept.refl s).next (arbitrate_keeps (reportPaste_keeps (.refl s)))
  | knifePositionReport st =>
    exact (TablesKept.refl s).next (arbitrate_keeps (reportKnife_keeps (.refl s)))
  | staleLimitReached st arm => exact (TablesKept.refl s).next (reportStale_keeps (.refl s))
  | pulseEnd st o =>
    refine fun t h => ?_
    simp only [exec, execPulseEnd] at h
    split at h <;> cases h <;> exact .of_same rfl rfl
  | revolutionMark st arm => exact execRevolutionMark_tables st arm
  | tapeMark st => exact execTapeMark_tables st
  | scanCall =>
    refine fun t h => ?_
    simp only [exec, execScanCall] at h
    split at h <;> cases h <;> exact .of_same rfl rfl
  | quietTimer =>
    refine fun t h => ?_
    simp only [exec, execQuietTimer] at h
    split at h <;> cases h <;> exact .of_same rfl rfl
  | scanEnd slots => exact execScanEnd_tables slots
  | stopHoldTimerEnd st => exact execStopHoldTimerEnd_tables st
  | accept st k arm => exact execAccept_tables st k arm
  | refuse st k arm why => exact execRefuse_tables st k arm why
  | replyTimeEnd => exact execReplyTimeEnd_tables
  | grantLapse => exact execGrantLapse_tables
  | readLimit st k => exact execReadLimit_tables st k
  | indexTimeout st => exact execIndexTimeout_tables st
  | verifyTimeout st => exact execVerifyTimeout_tables st
  | cutWaitEnd st => exact execCutWaitEnd_tables st
  | retractTimeout st => exact execRetractTimeout_tables st
  | response st b => exact onGrant_tables st (fun u => takeResponse_keeps (.refl u)) s
  | indexDone st x y z =>
    change Leaves _ (execIndexDone st x y z s)
    refine onGrant_tables st (fun u => ?_) s
    split
    · exact takeIndexDone_keeps (setIndexRecord_keeps (.refl u))
    · exact .refl u
  | verifyDone st arm => exact onGrant_tables st (fun u => takeVerifyDone_keeps (.refl u)) s
  | armHome st =>
    change Leaves _ (execArmHome st s)
    refine onGrant_tables st (fun u => ?_) s
    split
    · exact endRetract_keeps (.refl u)
    · exact .refl u
  | cutConfirmed st =>
    change Leaves _ (execCutConfirmed st s)
    refine onGrant_tables st (fun u => ?_) s
    split
    · exact tryCloseDone_keeps (modSequencer_keeps (.refl u))
    · exact .refl u
  | armLoaded st arm =>
    exact onGrant_tables (f := fun u => raiseStand st (setLoaded st arm true u)) st
      (fun u => raiseStand_keeps (setLoaded_keeps (.refl u))) s
  | armEmptied st arm =>
    exact onGrant_tables (f := fun u => raiseStand st (armReportedEmpty st arm u)) st
      (fun u => raiseStand_keeps (armReportedEmpty_keeps (.refl u))) s
  | queryArm st arm =>
    exact onGrant_tables (f := sendReport st arm) st
      (fun u => setBus_keeps (.refl u) ⟨rfl, rfl, rfl, rfl⟩ id) s
  | consoleFrameDiscarded p => exact leaves_of_next (.refl s)
  | answerFrameSeen a code p => exact leaves_of_next (.refl s)
  | unknownCode a code p => exact BodyKeeps.answer (.of_lookup fun _ => rfl) _ a code s
  | mountReel a p => exact ((mountReelBody_tables p).withLength _ p).send _ a _ s
  | prepared a p => exact ((preparedBody_tables p).withLength _ p).send _ a _ s
  | retireReel a p => exact ((retireReelBody_tables p).withLength _ p).answer _ a _ s
  | readReel a p => exact ((BodyKeeps.of_lookup (readReelBody_state p)).withLength _ p).answer _ a _ s
  | readArm a p => exact ((BodyKeeps.of_lookup (readArmBody_state p)).withLength _ p).answer _ a _ s
  | listReels a p => exact ((BodyKeeps.of_lookup (listReelsBody_state p)).withLength _ p).answer _ a _ s
  | threadReel a p => exact ((threadReelBody_tables p).withLength _ p).answer _ a _ s
  | stopReel a p => exact ((stopReelBody_tables p).withLength _ p).send _ a _ s
  | confirm a p => exact ((confirmBody_tables p).withLength _ p).send _ a _ s
  | cancelOrder a p => exact ((cancelOrderBody_tables p).withLength _ p).send _ a _ s
  | readOrder a p => exact ((BodyKeeps.of_lookup (readOrderBody_state p)).withLength _ p).answer _ a _ s
  | indexStand a p => exact ((indexStandBody_tables p).withLength _ p).send _ a _ s
  | clearStand a p => exact ((clearStandBody_tables p).withLength _ p).send _ a _ s
  | readStand a p => exact ((BodyKeeps.of_lookup (readStandBody_state p)).withLength _ p).answer _ a _ s
  | readLine a p => exact ((BodyKeeps.of_lookup (readLineBody_state p)).withLength _ p).answer _ a _ s
  | setParameter a p => exact ((setParameterBody_tables p).withLength _ p).send _ a _ s
  | readParameter a p =>
    exact ((BodyKeeps.of_lookup (readParameterBody_state p)).withLength _ p).answer _ a _ s
  | parameterRun a p => exact ((parameterRunBody_tables p).withLength _ p).answer _ a _ s
  | data a p => exact (dataBody_tables p).send _ a _ s
  | readChanges a p => exact (BodyKeeps.withLength (.of_lookup fun _ => rfl) _ p).answer _ a _ s
  | ackChanges a p => exact (BodyKeeps.withLength (fun _ => .of_same rfl rfl) _ p).answer _ a _ s
  | scanMode a p => exact ((scanModeBody_tables p).withLength _ p).answer _ a _ s
  | answerSent => exact leaves_of_next (.of_same rfl rfl)
  | unroutedStandMessage st => exact onGrant_tables st .refl s

end Sys2Proof.Machine
end

section
/-! The six commands that edit the tables, and the two statements on the tables (R16, R19, R35, R69, R70). -/

namespace Sys2Proof.Machine

open Sys2Proof

/-! ## What each of the six edits -/

section Edits

variable {s u : State} {p : List Byte}

theorem findReel_none {n : Nat} (h : findReel u n = none) {j : SlotId} {x : ReelRecord}
    (hx : vget u.reels j = some x) : x.reel ≠ n := by
  have := List.find?_eq_none.1 h j (mem_indices j)
  simpa [hx] using this

theorem rowOfTag_none {n : Nat} (h : rowOfTag u n = none) {j : RowId} {x : OrderRow}
    (hx : vget u.rows j = some x) : x.tag ≠ n := by
  have := List.find?_eq_none.1 h j (mem_indices j)
  simpa [hx] using this

theorem openRow_none {st : StandId} (h : openRow u st = none) {j : RowId} {x : OrderRow}
    (hx : vget u.rows j = some x) (hst : x.stand = st) : x.state.isOpen = false := by
  have := List.find?_eq_none.1 h j (mem_indices j)
  simpa [hx, hst] using this

theorem freeSlot_some {i : SlotId} (h : freeSlot u = some i) : vget u.reels i = none := by
  simpa using List.find?_some h

theorem emptyRow_some {i : RowId} (h : emptyRow u = some i) : vget u.rows i = none := by
  simpa using List.find?_some h

/-- ENTER REEL puts a record of a new number into a FREE slot (R16, R19). -/
theorem enterReelBody_cases (p : List Byte) (u : State) :
    (enterReelBody p u).1 = u ∨ ∃ i x, vget u.reels i = none ∧ findReel u x.reel = none ∧
      (enterReelBody p u).1 = setReel u i (some x) := by
  unfold enterReelBody
  dsimp only
  (repeat' split) <;> try exact .inl rfl
  rename_i st _ _ hn _ i hi
  exact .inr ⟨i, stagedRecord u (newReelItems p) st, freeSlot_some hi,
    Option.not_isSome_iff_eq_none.1 hn, rfl⟩

/-- AMEND REEL replaces a record by one of its number (R35). -/
theorem amendReelBody_cases (p : List Byte) (u : State) :
    (amendReelBody p u).1 = u ∨ ∃ i r y, vget u.reels i = some r ∧ y.reel = r.reel ∧
      (amendReelBody p u).1 = setReel u i (some y) := by
  unfold amendReelBody
  dsimp only
  (repeat' split) <;> try exact .inl rfl
  rename_i i _ _ r hr _ _
  exact .inr ⟨i, r, amended r (amendmentItems p), hr, rfl, rfl⟩

/-- ORDER SPLICE creates an order in an EMPTY row, under a tag not in use, on a stand without an open order
(R68, R70). -/
theorem orderSpliceBody_cases (p : List Byte) (u : State) :
    (orderSpliceBody p u).1 = u ∨ ∃ i row, vget u.rows i = none ∧ rowOfTag u row.tag = none ∧
      openRow u row.stand = none ∧ (orderSpliceBody p u).1 = createOrder i row u := by
  unfold orderSpliceBody placeOrder
  dsimp only
  (repeat' split) <;> try exact .inl rfl
  rename_i st _ _ ht _ hb _ old _ _ _ _ _ _ arm _ _ i hi
  simp only [Bool.or_eq_true, not_or, Option.not_isSome_iff_eq_none] at hb ht
  exact .inr ⟨i, newRow u (item p 0 1) st old.reel (item p 2 4) arm, emptyRow_some hi, ht, hb.1, rfl⟩

theorem releaseOrderBody_cases (p : List Byte) (u : State) :
    (releaseOrderBody p u).1 = u ∨
      ∃ i st, (releaseOrderBody p u).1 = raiseRow i st (setRow u i none) := by
  unfold releaseOrderBody withOrder releaseRow
  dsimp only
  (repeat' split) <;> try exact .inl rfl
  exact .inr ⟨_, _, rfl⟩

theorem restartBody_tables (u : State) : (restartBody u).1 = u ∨
    (restartBody u).1.reels = u.reels.map (Option.map fun r => { r with tag := none }) ∧
      ∀ r, vget (restartBody u).1.rows r = none := by
  unfold restartBody
  split
  · exact .inl rfl
  · refine .inr ⟨rfl, fun r => ?_⟩
    exact vget_replicate (n := 16) none r

/-- The state of a new order before its tags are written: its row and the allocation start (R68, R71). -/
theorem createOrder_keeps (i : RowId) (row : OrderRow) (u : State) :
    Keeps (setAllocStart (setRow u i (some row)) (i + 1)) (createOrder i row u) :=
  joinSchedule_keeps (raiseRow_keeps (modReel_keeps (modReel_keeps (.refl _)
    fun _ => ⟨rfl, rfl, rfl, rfl, rfl⟩) fun _ => ⟨rfl, rfl, rfl, rfl, rfl⟩))

end Edits

/-! ## Records keep their slots -/

section Slots

variable {s t : State}

/-- Every record stays in its slot with what ENTER REEL entered. -/
def RecordsKept (s t : State) : Prop := ∀ i, RecordKept (vget s.reels i) (vget t.reels i)

/-- No FREE slot holds a record after. -/
def FreeKept (s t : State) : Prop := ∀ i, vget s.reels i = none → vget t.reels i = none

/-- A record that stays in its slot keeps what ENTER REEL entered. -/
def EnteredKept (s t : State) : Prop :=
  ∀ i x y, vget s.reels i = some x → vget t.reels i = some y → SameEntered x y

theorem ofTables_of_reels {R : Vector (Option ReelRecord) 64 → Prop} : OfTables fun t => R t.reels :=
  fun u v hr _ h => by
    change R v.reels
    rw [hr]
    exact h

theorem RecordsKept.of_reels (h : t.reels = s.reels) : RecordsKept s t := fun i => by rw [h]; exact .refl _

theorem RecordsKept.free (h : RecordsKept s t) : FreeKept s t := by
  intro i hi
  cases hy : vget t.reels i with
  | none => rfl
  | some y => obtain ⟨x, hx, -⟩ := h i y hy; rw [hi] at hx; cases hx

theorem RecordsKept.entered (h : RecordsKept s t) : EnteredKept s t := by
  intro i x y hx hy
  obtain ⟨x', hx', same⟩ := h i y hy
  cases hx.symm.trans hx'
  exact same

theorem orderSpliceBody_records (p : List Byte) (hr : t.reels = s.reels) :
    RecordsKept s (orderSpliceBody p t).1 := by
  rcases orderSpliceBody_cases p t with e | ⟨i, row, -, -, -, e⟩
  · rw [e]; exact .of_reels hr
  · rw [e]
    intro j
    have := (createOrder_keeps i row t).reels j
    rwa [setAllocStart_reels, setRow_reels, hr] at this

theorem releaseOrderBody_records (p : List Byte) (hr : t.reels = s.reels) :
    RecordsKept s (releaseOrderBody p t).1 := by
  rcases releaseOrderBody_cases p t with e | ⟨i, st, e⟩
  · rw [e]; exact .of_reels hr
  · rw [e]; exact .of_reels (by simpa using hr)

theorem restartBody_records (hr : t.reels = s.reels) : RecordsKept s (restartBody t).1 := by
  rcases restartBody_tables t with e | ⟨e, -⟩
  · rw [e]; exact .of_reels hr
  · intro i
    rw [e, vget_map, hr]
    exact map_recordKept (f := fun r => { r with tag := none }) (fun _ => ⟨rfl, rfl, rfl, rfl, rfl⟩) _

/-- Every command but ENTER REEL and AMEND REEL keeps every record in its slot as it was entered. -/
theorem exec_records (c : Instr) (s : State) (he : ∀ a p, c ≠ .enterReel a p)
    (ha : ∀ a p, c ≠ .amendReel a p) : Leaves (RecordsKept s) (exec c s) := by
  have tables : OfTables (RecordsKept s) :=
    ofTables_of_reels (R := fun v => ∀ i, RecordKept (vget s.reels i) (vget v i))
  have self : RecordsKept s s := .of_reels rfl
  by_cases hc : editsTables c = false
  · exact fun t h => (exec_tables c s hc t h).reels
  · cases c with
    | powerOnReset a =>
      refine leaves_of_next fun i => ?_
      exact (reset_reels i).symm ▸ none_recordKept _
    | enterReel a p => exact absurd rfl (he a p)
    | amendReel a p => exact absurd rfl (ha a p)
    | orderSplice a p =>
      exact answerAndSend_ofTables tables self _ a _ (withLength_ofTables tables self _ p
        fun u hr _ => orderSpliceBody_records p hr)
    | releaseOrder a p =>
      exact answerCommand_ofTables tables self _ a _ (withLength_ofTables tables self _ p
        fun u hr _ => releaseOrderBody_records p hr)
    | restart a p =>
      exact answerCommand_ofTables tables self _ a _ (withLength_ofTables tables self _ p
        fun u hr _ => restartBody_records hr)
    | _ => exact absurd rfl hc

/-- ENTER REEL leaves every record as it was entered. -/
theorem enterReel_entered (a : Byte) (p : List Byte) (s : State) :
    Leaves (EnteredKept s) (exec (.enterReel a p) s) := by
  have tables : OfTables (EnteredKept s) := ofTables_of_reels
    (R := fun v => ∀ i x y, vget s.reels i = some x → vget v i = some y → SameEntered x y)
  have self : EnteredKept s s := (RecordsKept.of_reels rfl).entered
  refine answerCommand_ofTables tables self _ a _ (withLength_ofTables tables self _ p fun u hr hw => ?_)
  rcases enterReelBody_cases p u with e | ⟨i, x, hi, -, e⟩
  · rw [e]; exact tables s u hr hw self
  · rw [e]
    intro j y z hy hz
    rw [setReel_reels, vget_vset_ne _ _ _ _ (by rintro rfl; rw [← hr, hi] at hy; cases hy), hr] at hz
    exact self j y z hy hz

/-- AMEND REEL fills no FREE slot. -/
theorem amendReel_free (a : Byte) (p : List Byte) (s : State) :
    Leaves (FreeKept s) (exec (.amendReel a p) s) := by
  have tables : OfTables (FreeKept s) :=
    ofTables_of_reels (R := fun v => ∀ i, vget s.reels i = none → vget v i = none)
  have self : FreeKept s s := fun _ h => h
  refine answerCommand_ofTables tables self _ a _ (withLength_ofTables tables self _ p fun u hr hw => ?_)
  rcases amendReelBody_cases p u with e | ⟨i, r, y, hi, -, e⟩
  · rw [e]; exact tables s u hr hw self
  · rw [e]
    intro j hj
    rw [setReel_reels, vget_vset_ne _ _ _ _ (by rintro rfl; rw [hr, hj] at hi; cases hi), hr]
    exact hj

end Slots

/-- Settles O9: all commands but ENTER REEL and AMEND REEL keep the records in their slots; ENTER REEL touches no
record, and AMEND REEL no FREE slot. -/
theorem recordsKeepTheirSlots : Obligations.RecordsKeepTheirSlots := by
  intro c s t h i
  constructor
  · intro he
    by_cases ha : ∃ a p, c = .amendReel a p
    · obtain ⟨a, p, rfl⟩ := ha
      exact amendReel_free a p s t h i
    · exact (exec_records c s he (fun a p e => ha ⟨a, p, e⟩) t h).free i
  · intro ha
    by_cases he : ∃ a p, c = .enterReel a p
    · obtain ⟨a, p, rfl⟩ := he
      exact enterReel_entered a p s t h i
    · exact (exec_records c s (fun a p e => he ⟨a, p, e⟩) ha t h).entered i

/-! ## The laws of the tables -/

section Laws

variable {s t u : State}

/-- A change after which each law of the tables holds, if it held before. -/
structure LawsStay (s t : State) : Prop where
  numbers : ReelNumbersDiffer s → ReelNumbersDiffer t
  tags : TagsDiffer s → TagsDiffer t
  orders : OneOpenOrder s → OneOpenOrder t

theorem LawsStay.trans (h : LawsStay s t) (k : LawsStay t u) : LawsStay s u :=
  ⟨k.numbers ∘ h.numbers, k.tags ∘ h.tags, k.orders ∘ h.orders⟩

/-- The row before a row that is kept: its tag and stand, and open when the kept one is. -/
theorem rowKept_before {a b : Option OrderRow} (h : RowKept a b) {y : OrderRow} (hy : b = some y) :
    ∃ x, a = some x ∧ y.tag = x.tag ∧ y.stand = x.stand ∧ (y.state.isOpen = true → x.state.isOpen = true) := by
  subst hy
  cases a with
  | none => cases h
  | some x =>
    obtain ⟨tag, stand, -, -, -, closed⟩ := h
    refine ⟨x, rfl, tag, stand, fun ho => ?_⟩
    by_contra hc
    rw [closed (by simpa using hc)] at ho
    exact hc ho

/-- The laws speak of the numbers of the records and of what a row keeps. -/
theorem TablesKept.laws (h : TablesKept s t) : LawsStay s t where
  numbers hs i j x y hx hy e := by
    obtain ⟨x', hx', ex, -⟩ := h.reels i x hx
    obtain ⟨y', hy', ey, -⟩ := h.reels j y hy
    exact hs i j x' y' hx' hy' (ex.symm.trans (e.trans ey))
  tags hs i j x y hx hy e := by
    obtain ⟨x', hx', ex, -⟩ := rowKept_before (h.rows i) hx
    obtain ⟨y', hy', ey, -⟩ := rowKept_before (h.rows j) hy
    exact hs i j x' y' hx' hy' (ex.symm.trans (e.trans ey))
  orders hs i j x y hx hy e ox oy := by
    obtain ⟨x', hx', -, ex, hox⟩ := rowKept_before (h.rows i) hx
    obtain ⟨y', hy', -, ey, hoy⟩ := rowKept_before (h.rows j) hy
    exact hs i j x' y' hx' hy' (ex.symm.trans (e.trans ey)) (hox ox) (hoy oy)

theorem LawsStay.of_same (hr : t.reels = s.reels) (hw : t.rows = s.rows) : LawsStay s t :=
  (TablesKept.of_same hr hw).laws

theorem LawsStay.refl (s : State) : LawsStay s s := .of_same rfl rfl

theorem lawsStay_ofTables (s : State) : OfTables (LawsStay s) :=
  fun _ _ hr hw h => h.trans (.of_same hr hw)

/-- A record of a new number entered in a FREE slot. -/
theorem setReel_new_laws {i : SlotId} {x : ReelRecord} (h : findReel s x.reel = none) :
    LawsStay s (setReel s i (some x)) := by
  refine ⟨fun hs j k y z hy hz e => ?_, id, id⟩
  simp only [setReel_reels, vget_vset] at hy hz
  split at hy <;> split at hz
  · next hj hk => exact hj.trans hk.symm
  · cases hy; exact absurd e.symm (findReel_none h hz)
  · cases hz; exact absurd e (findReel_none h hy)
  · exact hs j k y z hy hz e

theorem setReel_same_laws {i : SlotId} {x y : ReelRecord} (h : vget s.reels i = some x)
    (hn : y.reel = x.reel) : LawsStay s (setReel s i (some y)) := by
  have before : ∀ j z, vget (setReel s i (some y)).reels j = some z →
      ∃ z', vget s.reels j = some z' ∧ z.reel = z'.reel := by
    intro j z hz
    rw [setReel_reels, vget_vset] at hz
    split at hz
    · next hj => cases hz; exact ⟨x, hj ▸ h, hn⟩
    · exact ⟨z, hz, rfl⟩
  refine ⟨fun hs j k a b ha hb e => ?_, id, id⟩
  obtain ⟨a', ha', ea⟩ := before j a ha
  obtain ⟨b', hb', eb⟩ := before k b hb
  exact hs j k a' b' ha' hb' (ea.symm.trans (e.trans eb))

/-- An order of a new tag made in an EMPTY row, for a stand without an open order. -/
theorem setRow_new_laws {i : RowId} {row : OrderRow} (ht : rowOfTag s row.tag = none)
    (ho : openRow s row.stand = none) : LawsStay s (setRow s i (some row)) := by
  refine ⟨id, fun hs j k x y hx hy e => ?_, fun hs j k x y hx hy e ox oy => ?_⟩ <;>
    simp only [setRow_rows, vget_vset] at hx hy <;> split at hx <;> split at hy
  · next hj hk => exact hj.trans hk.symm
  · cases hx; exact absurd e.symm (rowOfTag_none ht hy)
  · cases hy; exact absurd e (rowOfTag_none ht hx)
  · exact hs j k x y hx hy e
  · next hj hk => exact hj.trans hk.symm
  · cases hx; rw [openRow_none ho hy e.symm] at oy; cases oy
  · cases hy; rw [openRow_none ho hx e] at ox; cases ox
  · exact hs j k x y hx hy e ox oy

theorem setRow_none_laws (i : RowId) : LawsStay s (setRow s i none) := by
  have before : ∀ j x, vget (setRow s i none).rows j = some x → vget s.rows j = some x := by
    intro j x hx
    rw [setRow_rows, vget_vset] at hx
    split at hx
    · cases hx
    · exact hx
  exact ⟨id, fun hs j k x y hx hy => hs j k x y (before j x hx) (before k y hy),
    fun hs j k x y hx hy => hs j k x y (before j x hx) (before k y hy)⟩

/-- With the Order Table empty, only the numbers of the records matter. -/
theorem RecordsKept.laws_of_empty (h : RecordsKept s t) (hw : ∀ r, vget t.rows r = none) : LawsStay s t where
  numbers hs i j x y hx hy e := by
    obtain ⟨x', hx', ex, -⟩ := h i x hx
    obtain ⟨y', hy', ey, -⟩ := h j y hy
    exact hs i j x' y' hx' hy' (ex.symm.trans (e.trans ey))
  tags _ i _ _ _ hx := by rw [hw i] at hx; cases hx
  orders _ i _ _ _ hx := by rw [hw i] at hx; cases hx

theorem enterReelBody_laws (p : List Byte) (s : State) : LawsStay s (enterReelBody p s).1 := by
  rcases enterReelBody_cases p s with e | ⟨i, x, -, hn, e⟩ <;> rw [e]
  · exact .refl s
  · exact setReel_new_laws hn

theorem amendReelBody_laws (p : List Byte) (s : State) : LawsStay s (amendReelBody p s).1 := by
  rcases amendReelBody_cases p s with e | ⟨i, r, y, hr, hn, e⟩ <;> rw [e]
  · exact .refl s
  · exact setReel_same_laws hr hn

theorem orderSpliceBody_laws (p : List Byte) (s : State) : LawsStay s (orderSpliceBody p s).1 := by
  rcases orderSpliceBody_cases p s with e | ⟨i, row, -, ht, ho, e⟩ <;> rw [e]
  · exact .refl s
  · have made : LawsStay s (setAllocStart (setRow s i (some row)) (i + 1)) :=
      (setRow_new_laws ht ho).trans (.of_same rfl rfl)
    exact made.trans (createOrder_keeps i row s).tables.laws

theorem releaseOrderBody_laws (p : List Byte) (s : State) : LawsStay s (releaseOrderBody p s).1 := by
  rcases releaseOrderBody_cases p s with e | ⟨i, st, e⟩ <;> rw [e]
  · exact .refl s
  · exact (setRow_none_laws i).trans (raiseRow_keeps (.refl _)).tables.laws

theorem restartBody_laws (s : State) : LawsStay s (restartBody s).1 := by
  rcases restartBody_tables s with e | ⟨-, hw⟩
  · rw [e]; exact .refl s
  · exact (restartBody_records rfl).laws_of_empty hw

/-- A body that keeps the laws, taken with a frame of its length. -/
theorem lawsStay_body {body : State → State × Reply} (hb : ∀ u, LawsStay u (body u).1) (n : Nat)
    (p : List Byte) (u : State) (hr : u.reels = s.reels) (hw : u.rows = s.rows) :
    LawsStay s (withLength n p body u).1 :=
  withLength_ofTables (lawsStay_ofTables s) (.refl s) n p
    (fun v hr hw => (LawsStay.of_same hr hw).trans (hb v)) u hr hw

theorem exec_laws (c : Instr) (s : State) : Leaves (LawsStay s) (exec c s) := by
  have tables := lawsStay_ofTables s
  have self : LawsStay s s := .refl s
  by_cases hc : editsTables c = false
  · exact fun t h => (exec_tables c s hc t h).laws
  · cases c with
    | powerOnReset a =>
      refine leaves_of_next (RecordsKept.laws_of_empty (fun i => ?_) fun r => reset_rows r)
      exact (reset_reels i).symm ▸ none_recordKept _
    | enterReel a p =>
      exact answerCommand_ofTables tables self _ a _ (lawsStay_body (enterReelBody_laws p) _ p)
    | amendReel a p =>
      exact answerCommand_ofTables tables self _ a _ (lawsStay_body (amendReelBody_laws p) _ p)
    | orderSplice a p =>
      exact answerAndSend_ofTables tables self _ a _ (lawsStay_body (orderSpliceBody_laws p) _ p)
    | releaseOrder a p =>
      exact answerCommand_ofTables tables self _ a _ (lawsStay_body (releaseOrderBody_laws p) _ p)
    | restart a p =>
      exact answerCommand_ofTables tables self _ a _ (lawsStay_body restartBody_laws _ p)
    | _ => exact absurd rfl hc

theorem step_laws (s : State) : Leaves (LawsStay s) (step s) := by
  unfold step
  split
  · next c rest _ =>
    have popped : LawsStay s { s with pending := rest } := .of_same rfl rfl
    exact fun t h => popped.trans (exec_laws c _ t h)
  · unfold idle
    split
    · exact exec_laws _ s
    · exact leaves_of_next (.of_same rfl rfl)

end Laws

/-- Settles O12: a step carries out one command or moves the clock, and every command keeps each law. -/
theorem tableLawsStay : Obligations.TableLawsStay := by
  intro s t h
  obtain ⟨numbers, tags, orders⟩ := step_laws s t h
  exact ⟨numbers, tags, orders⟩

end Sys2Proof.Machine
end

section
/-! The console's commands on reel records: ENTER REEL, MOUNT REEL, PREPARED, AMEND REEL and RETIRE REEL (R16 to
R24, R35, R36). -/

namespace Sys2Proof.Machine

open Sys2Proof

/-! ## A frame that is carried out and answered -/

section Answered

variable {s t : State} {ad code : Byte} {n : Nat} {p : List Byte} {body : State → State × Reply} {x : Status}
  {items : List Byte}

/-- The state that a body leaves, answered; the body opens no parameter run. -/
theorem takeCommand_answers (h : Addressed s ad) (hp : p.length = n)
    (hb : body (endParamRun s) = (t, ⟨x, items⟩)) (hr : t.port.run = none) :
    takeCommand .plain ad code (withLength n p body) s =
      { t with port := answering t.port code x items } := by
  rw [takeCommand_addressed h, withLength_eq hp, hb]
  simp only [setAnswer, setPort, answering, answerOf, hr]

theorem answerCommand_answers (h : Addressed s ad) (hp : p.length = n)
    (hb : body (endParamRun s) = (t, ⟨x, items⟩)) (hr : t.port.run = none) :
    answerCommand .plain ad code (withLength n p body) s =
      .next { t with port := answering t.port code x items } :=
  congrArg Host.Outcome.next (takeCommand_answers h hp hb hr)

theorem answerAndSend_answers (h : Addressed s ad) (hp : p.length = n)
    (hb : body (endParamRun s) = (t, ⟨x, items⟩)) (hr : t.port.run = none) :
    answerAndSend .plain ad code (withLength n p body) s =
      .next (arbitrate { t with port := answering t.port code x items }) :=
  congrArg (fun u => Host.Outcome.next (arbitrate u)) (takeCommand_answers h hp hb hr)

end Answered

/-! ## Items and look-ups -/

theorem standOf_eq_none {n : Nat} (h : n = 0 ∨ 8 < n) : standOf n = none := by
  unfold standOf
  rw [dif_neg (by omega)]

theorem given_all {mark x : Nat} {ok : Nat → Bool} :
    acceptable ok (given mark x) = true ↔ x = mark ∨ ok x = true := by
  by_cases h : x = mark <;> simp [acceptable, given, h]

theorem given_map_getD {mark x d : Nat} (f : Nat → Nat) :
    ((given mark x).map f).getD d = if x = mark then d else f x := by
  by_cases h : x = mark <;> simp [given, h]

theorem given_map {mark x : Nat} (f : Nat → Nat) :
    (given mark x).map f = if x = mark then none else some (f x) := by
  by_cases h : x = mark <;> simp [given, h]

theorem given_eq (mark x : Nat) : given mark x = if x = mark then none else some x := by
  by_cases h : x = mark <;> simp [given, h]

theorem coreAccepted_iff {d : Nat} :
    coreAccepted d = true ↔ 3000 ≤ d * 31416 / 1000 ∧ d * 31416 / 1000 ≤ 6000 := by
  rw [coreAccepted, Bool.and_eq_true, decide_eq_true_iff, decide_eq_true_iff, circumferenceOf]

theorem outsideAccepted_iff {d : Nat} : outsideAccepted d = true ↔ 150 ≤ d ∧ d ≤ 1400 := by
  simp [outsideAccepted]

theorem caliperAccepted_iff {d : Nat} : caliperAccepted d = true ↔ 40 ≤ d ∧ d ≤ 200 := by
  simp [caliperAccepted]

/-- The lowest number for which a test holds is the one found. -/
theorem find?_indices {n : Nat} {t : Fin n → Bool} {i : Fin n} (hi : t i = true)
    (hlow : ∀ j, j < i → t j = false) : (indices n).find? t = some i := by
  rw [List.find?_eq_some_iff_getElem]
  refine ⟨hi, i.val, by simp [indices], by simp [indices], fun j hj => ?_⟩
  simpa [indices] using hlow ⟨j, by omega⟩ hj

theorem freeSlot_lowest {s : State} {i : SlotId} (hi : vget s.reels i = none)
    (hlow : ∀ j, j < i → vget s.reels j ≠ none) : freeSlot s = some i :=
  find?_indices (by simp [hi]) fun j hj => by simpa [Option.isSome_iff_ne_none] using hlow j hj

theorem freeSlot_full {s : State} (h : ∀ i, vget s.reels i ≠ none) : freeSlot s = none :=
  List.find?_eq_none.2 fun i _ => by simpa [Option.isSome_iff_ne_none] using h i

theorem findReel_isSome {s : State} {n : Nat} {i : SlotId} {r : ReelRecord} (hr : vget s.reels i = some r)
    (hn : r.reel = n) : (findReel s n).isSome = true := by
  rw [findReel, List.find?_isSome]
  exact ⟨i, mem_indices i, by simp [hr, hn]⟩

theorem findReel_eq_none {s : State} {n : Nat} (h : ∀ i r, vget s.reels i = some r → r.reel ≠ n) :
    findReel s n = none := by
  refine List.find?_eq_none.2 fun i _ => ?_
  cases hr : vget s.reels i with
  | none => simp
  | some r => simpa using h i r hr

/-! ## ENTER REEL (R16, R17, R19) -/

section Enter

variable {s : State} {p : List Byte} {st : StandId}

theorem newReelAccepted_iff (hst : item p 4 1 = st.val + 1) : newReelAccepted (newReelItems p) = true ↔
    item p 0 4 ≠ 0 ∧
      (item p 7 2 = 0 ∨ 3000 ≤ item p 7 2 * 31416 / 1000 ∧ item p 7 2 * 31416 / 1000 ≤ 6000) ∧
      (item p 9 2 = 0 ∨ 150 ≤ item p 9 2 ∧ item p 9 2 ≤ 1400) ∧
      (item p 11 1 = 0 ∨ 40 ≤ item p 11 1 ∧ item p 11 1 ≤ 200) := by
  simp only [newReelAccepted, newReelItems, hst, standOf_val, Bool.and_eq_true, given_all, coreAccepted_iff,
    outsideAccepted_iff, caliperAccepted_iff, Option.isSome_some, bne_iff_ne, and_true, and_assoc]

theorem enterReelBody_noStand (h : item p 4 1 = 0 ∨ 8 < item p 4 1) :
    enterReelBody p s = (s, ⟨.badValue, []⟩) := by
  unfold enterReelBody
  dsimp only
  rw [show standOf (newReelItems p).stand = none from standOf_eq_none h]
  rfl

theorem enterReelBody_stand (hst : item p 4 1 = st.val + 1) : enterReelBody p s =
    if newReelAccepted (newReelItems p) = false then (s, ⟨.badValue, []⟩)
    else if (findReel s (item p 0 4)).isSome then (s, ⟨.reelExists, []⟩)
    else match freeSlot s with
      | none => (s, ⟨.reelTableFull, []⟩)
      | some i => (setReel s i (some (stagedRecord s (newReelItems p) st)), ⟨.ok, []⟩) := by
  unfold enterReelBody
  dsimp only
  rw [show standOf (newReelItems p).stand = some st by rw [← standOf_val st, ← hst]; rfl]
  simp only [Bool.not_eq_true']
  rfl

theorem stagedRecord_eq (s : State) (p : List Byte) (st : StandId) : stagedRecord s (newReelItems p) st = {
    reel := item p 0 4, stand := st, grade := item p 5 2, state := .staged, arm := none
    core := if item p 7 2 = 0 then standParam s st 11 else item p 7 2 * 31416 / 1000
    outside := if item p 9 2 = 0 then none else some (item p 9 2 * 31416 / 1000)
    caliper := if item p 11 1 = 0 then none else some (item p 11 1)
    current := none, remaining := none, learned := none, verify := .untested
    runout := false, clamped := false, trackingFault := false, tag := none } := by
  unfold stagedRecord newReelItems
  rw [given_map_getD, given_map, given_eq]
  rfl

end Enter

/-- Settles O49: the stand number, the items, the number and the FREE slot are tested in this order. -/
theorem enterReel : Obligations.EnterReel := by
  intro ad p s ha hp n core outside caliper answers good
  have refused : ∀ x, enterReelBody p (endParamRun s) = (endParamRun s, ⟨x, []⟩) → answers x :=
    fun x hb => answerCommand_lookup ha hp hb
  constructor
  · intro h
    by_cases hst : item p 4 1 = 0 ∨ 8 < item p 4 1
    · exact refused _ (enterReelBody_noStand hst)
    · have hs : item p 4 1 = (⟨item p 4 1 - 1, by omega⟩ : StandId).val + 1 := by
        change item p 4 1 = item p 4 1 - 1 + 1
        omega
      refine refused _ ((enterReelBody_stand hs).trans (if_pos ?_))
      rw [← Bool.not_eq_true, newReelAccepted_iff hs]
      rintro ⟨hn, hg⟩
      rcases h with h | h | h | h
      · exact hn h
      · exact hst (.inl h)
      · exact hst (.inr h)
      · exact h hg
  · intro st hst hn hg
    have hb := enterReelBody_stand (s := endParamRun s) hst
    rw [if_neg (by rw [(newReelAccepted_iff hst).2 ⟨hn, hg⟩]; decide)] at hb
    refine ⟨fun i r hr he => refused _ (hb.trans (if_pos (findReel_isSome (s := endParamRun s) hr he))),
      fun hnew => ?_⟩
    rw [findReel_eq_none (s := endParamRun s) hnew, if_neg (by decide)] at hb
    refine ⟨fun hfull => refused _ ?_, fun i hi hlow => ?_⟩
    · rw [hb, freeSlot_full (s := endParamRun s) hfull]
    · rw [freeSlot_lowest (s := endParamRun s) hi hlow] at hb
      rw [stagedRecord_eq] at hb
      exact answerCommand_answers ha hp hb rfl

/-! ## MOUNT REEL and PREPARED (R20, R23, R24) -/

section Mount

variable {s : State} {p : List Byte} {i : SlotId} {r : ReelRecord} {arm : Arm}

theorem isOnline_iff {st : StandId} : isOnline s st = true ↔ (vget s.stands st).condition = .online := beq_iff_eq

theorem mountReelBody_ok (hi : findReel s (item p 0 4) = some i) (hr : vget s.reels i = some r)
    (ha : item p 4 1 = armCode arm) (hs : r.state = .staged)
    (ho : (vget s.stands r.stand).condition = .online)
    (hl : armGet (vget s.stands r.stand).loaded arm = true) (hb : boundSlot s r.stand arm = none) :
    mountReelBody p s = ok [] (queueRequest r.stand (gaugeRequest arm r.reel)
      (setReel s i (some { r with state := .mounted, arm := some arm }))) := by
  unfold mountReelBody
  rw [ha, armOfCode_armCode, hi]
  dsimp only
  rw [hr]
  simp [hs, isOnline_iff.2 ho, loadedUnbound, hl, hb]

/-- The record that PREPARED leaves (R23). -/
def preparedRecord (r : ReelRecord) : ReelRecord := { r with state := .prepared, verify := .untested }

theorem preparedBody_ok (hi : findReel s (item p 0 4) = some i) (hr : vget s.reels i = some r)
    (hs : r.state = .mounted ∨ r.state = .prepared) (ho : (vget s.stands r.stand).condition = .online) :
    preparedBody p s = ok [] (declare (preparedRecord r) (setReel s i (some (preparedRecord r)))) := by
  unfold preparedBody
  rw [hi]
  dsimp only
  rw [hr]
  rcases hs with hs | hs <;> simp [hs, isOnline_iff.2 ho, preparedRecord]

theorem declare_starts (hv : vget s.verifies r.stand = none) (hs : r.state = .prepared)
    (ho : (vget s.stands r.stand).condition = .online) (ha : r.arm = some arm)
    (hp : armPosition s r.stand arm = some .splice) : declare r s = startRun r.stand r.reel arm s := by
  have may : mayStart s r = some arm := by
    simp [mayStart, ha, hs, hp, isOnline_iff.2 ho, hv, Option.filter]
  simp only [declare, hv, startIfDue, may]

theorem declare_repeats {v : VerifyRun} (hv : vget s.verifies r.stand = some v) (hn : v.reel = r.reel) :
    declare r s = setVerify s r.stand (some { v with
      turning := v.turning.map fun x => { x with repeatMark := true } }) := by
  simp [declare, hv, hn]

theorem declare_idle (hv : vget s.verifies r.stand = none)
    (hp : ∀ arm, r.arm = some arm → armPosition s r.stand arm ≠ some .splice) : declare r s = s := by
  have may : mayStart s r = none := by
    cases ha : r.arm with
    | none => simp [mayStart, ha]
    | some arm => simp [mayStart, ha, Option.filter, hp arm ha]
  simp only [declare, hv, startIfDue, may]

end Mount

theorem exec_prepared {ad : Byte} {p : List Byte} {s : State} :
    exec (.prepared ad p) s = answerAndSend .plain ad 0x03 (withLength 4 p (preparedBody p)) s := rfl

/-- Settles O50: each command's body on the record found, answered and arbitrated. -/
theorem mountAndPrepare : Obligations.MountAndPrepare := by
  intro ad p s i r ha hi hr
  refine ⟨fun hp arm harm hs ho hl hb => ?_, fun hp hs ho => ?_⟩
  · exact answerAndSend_answers ha hp (mountReelBody_ok (s := endParamRun s) hi hr harm hs ho hl hb) rfl
  · have hb := preparedBody_ok (s := endParamRun s) (p := p) hi hr hs ho
    refine ⟨fun arm harm hpos hv => ?_, fun v hv hn => ?_, fun hv hpos => ?_⟩
    · rw [declare_starts (r := preparedRecord r) (by exact hv) rfl (by exact ho) harm (by exact hpos)] at hb
      rw [exec_prepared, answerAndSend_answers ha hp hb rfl]
      rfl
    · rw [declare_repeats (r := preparedRecord r) (by exact hv) (by exact hn)] at hb
      rw [exec_prepared, answerAndSend_answers ha hp hb rfl]
      rfl
    · rw [declare_idle (r := preparedRecord r) (by exact hv) (by exact hpos)] at hb
      rw [exec_prepared, answerAndSend_answers ha hp hb rfl]
      rfl

/-! ## AMEND REEL and RETIRE REEL (R35, R36) -/

section Amend

variable {s : State} {p : List Byte} {i : SlotId} {r : ReelRecord}

theorem retireReelBody_none (hi : findReel s (item p 0 4) = none) :
    retireReelBody p s = (s, ⟨.noSuchReel, []⟩) := by
  unfold retireReelBody
  rw [hi]
  rfl

theorem retireReelBody_some (hi : findReel s (item p 0 4) = some i) (hr : vget s.reels i = some r) :
    retireReelBody p s = if retirable r then (setReel s i none, ⟨.ok, []⟩) else (s, ⟨.wrongState, []⟩) := by
  unfold retireReelBody
  rw [hi]
  simp only [hr, Option.any_some]
  rfl

theorem retirable_iff : retirable r = true ↔ (r.state = .staged ∨ r.state = .expired) ∧ r.tag = none := by
  simp [retirable]

theorem amendReelBody_some (hi : findReel s (item p 0 4) = some i) (hr : vget s.reels i = some r)
    (hx : amendmentAccepted (amendmentItems p) = true) :
    amendReelBody p s = if amendable r (amendmentItems p)
      then (setReel s i (some (amended r (amendmentItems p))), ⟨.ok, []⟩) else (s, ⟨.wrongState, []⟩) := by
  unfold amendReelBody
  rw [hi]
  dsimp only
  rw [hr]
  simp only [hx, Bool.not_true, Bool.not_eq_true']
  cases amendable r (amendmentItems p) <;> rfl

theorem amendmentAccepted_iff : amendmentAccepted (amendmentItems p) = true ↔
    (item p 4 4 = 0xFFFFFFFF ∨ item p 4 4 ≤ 65535) ∧
      (item p 8 2 = 0xFFFF ∨ 40 ≤ item p 8 2 ∧ item p 8 2 ≤ 200) ∧
      (item p 10 2 = 0xFFFF ∨ 3000 ≤ item p 10 2 * 31416 / 1000 ∧ item p 10 2 * 31416 / 1000 ≤ 6000) := by
  simp only [amendmentAccepted, amendmentItems, Bool.and_eq_true, given_all, caliperAccepted_iff,
    coreAccepted_iff, decide_eq_true_iff, and_assoc]

theorem given_eq_none {mark x : Nat} : given mark x = none ↔ x = mark := by
  by_cases h : x = mark <;> simp [given, h]

theorem given_getD (mark x d : Nat) : (given mark x).getD d = if x = mark then d else x := by
  by_cases h : x = mark <;> simp [given, h]

theorem given_orElse (mark x : Nat) (y : Option Nat) :
    (given mark x).orElse (fun _ => y) = if x = mark then y else some x := by
  by_cases h : x = mark <;> simp [given, h]

/-- COMMITTED and EXPIRED records take no amendment, and a RUNNING one no new grade or core (R35). -/
theorem amendable_iff : amendable r (amendmentItems p) = true ↔ r.state ≠ .committed ∧ r.state ≠ .expired ∧
    (r.state = .running → item p 4 4 = 0xFFFFFFFF ∧ item p 10 2 = 0xFFFF) := by
  unfold amendable amendmentItems
  cases r.state <;> simp [given_eq_none]

theorem amended_eq (r : ReelRecord) (p : List Byte) : amended r (amendmentItems p) = { r with
    grade := if item p 4 4 = 0xFFFFFFFF then r.grade else item p 4 4
    caliper := if item p 8 2 = 0xFFFF then r.caliper else some (item p 8 2)
    core := if item p 10 2 = 0xFFFF then r.core else item p 10 2 * 31416 / 1000 } := by
  unfold amended amendmentItems
  rw [given_map_getD, given_getD, given_orElse]
  rfl

end Amend

/-- Settles O51: each body on the record found, by what its state admits. -/
theorem amendAndRetire : Obligations.AmendAndRetire := by
  intro ad p s ha
  refine ⟨fun hp hi => answerCommand_lookup ha hp (retireReelBody_none (s := endParamRun s) hi),
    fun i r hi hr => ⟨fun hp => ?_, fun hp => ?_⟩⟩
  · have hb := retireReelBody_some (s := endParamRun s) (p := p) hi hr
    refine ⟨fun hs ht => ?_, fun h => ?_⟩
    · rw [if_pos (retirable_iff.2 ⟨hs, ht⟩)] at hb
      exact answerCommand_answers ha hp hb rfl
    · refine answerCommand_lookup ha hp (hb.trans (if_neg fun hk => ?_))
      obtain ⟨hs, ht⟩ := retirable_iff.1 hk
      rcases h with ⟨hns, hne⟩ | h
      · exact hs.elim hns hne
      · exact h ht
  · intro grade caliper core hg hc hd
    have hb := amendReelBody_some (s := endParamRun s) (p := p) hi hr (amendmentAccepted_iff.2 ⟨hg, hc, hd⟩)
    refine ⟨fun h => ?_, fun hs he hn => ?_⟩
    · refine answerCommand_lookup ha hp (hb.trans (if_neg fun hk => ?_))
      obtain ⟨hs, he, hn⟩ := amendable_iff.1 hk
      rcases h with h | h | ⟨h, hx⟩
      · exact hs h
      · exact he h
      · exact hx.elim (fun hx => hx (hn h).1) fun hx => hx (hn h).2
    · rw [if_pos (amendable_iff.2 ⟨hs, he, hn⟩), amended_eq] at hb
      exact answerCommand_answers ha hp hb rfl

end Sys2Proof.Machine
end

section
/-! Exchanges on the pair: what operations outside an exchange do to the bus, and the answers to requests and
queries (R138 to R148). -/

namespace Sys2Proof.Machine

open Sys2Proof

/-! ## Tables and parts that stay -/

section Parts

variable {s t : State} {changed : List Block}

theorem onlyAt_vset {α : Type} {n : Nat} {i : Fin n} {v : Vector α n} {x : α} : OnlyAt i v (vset v i x) :=
  fun j h => vget_vset_ne v i j x h

theorem onlyAt_refl {α : Type} {n : Nat} {i : Fin n} {v : Vector α n} : OnlyAt i v v := fun _ _ => rfl

theorem onlyAt_of_eq {α : Type} {n : Nat} {i : Fin n} {v w : Vector α n} (h : w = v) : OnlyAt i v w := by
  rw [h]; exact onlyAt_refl

theorem onlyIn_refl : OnlyIn changed s s := by intro b _; cases b <;> rfl

theorem setBus_onlyIn {x : Bus} : OnlyIn [.bus] s (setBus s x) := by
  intro b hb
  cases b
  case bus => simp at hb
  all_goals rfl

theorem setVerify_onlyIn {st : StandId} {x : Option VerifyRun} :
    OnlyIn [.verifies] s (setVerify s st x) := by
  intro b hb
  cases b
  case verifies => simp at hb
  all_goals rfl

theorem setSequencer_onlyIn {st : StandId} {x : Option Sequencer} :
    OnlyIn [.sequencers] s (setSequencer s st x) := by
  intro b hb
  cases b
  case sequencers => simp at hb
  all_goals rfl

theorem setNow_onlyIn {n : Nat} : OnlyIn [.now] s (setNow s n) := by
  intro b hb
  cases b
  case now => simp at hb
  all_goals rfl

theorem setStand_onlyIn {st : StandId} {x : StandContext} : OnlyIn [.stands] s (setStand s st x) := by
  intro b hb
  cases b
  case stands => simp at hb
  all_goals rfl

theorem setReel_onlyIn {i : SlotId} {x : Option ReelRecord} : OnlyIn [.reels] s (setReel s i x) := by
  intro b hb
  cases b
  case reels => simp at hb
  all_goals rfl

theorem raiseStand_onlyIn {st : StandId} : OnlyIn [.port] s (raiseStand st s) := by
  intro b hb
  unfold raiseStand raiseBit
  split
  · cases b
    case port => simp at hb
    all_goals rfl
  · cases b <;> rfl

theorem raiseStand_port (s : State) (st : StandId) : (raiseStand st s).port = raisedPort s st := by
  unfold raiseStand raiseBit raisedPort standEnabled standBit
  split <;> rfl

/-- What OnlyIn says once more is changed in a later step. -/
theorem OnlyIn.and_then {u : State} {more : List Block} (h : OnlyIn changed s t) (k : OnlyIn more t u) :
    OnlyIn (changed ++ more) s u :=
  (h.mono fun _ hb => List.mem_append_left _ hb).trans (k.mono fun _ hb => List.mem_append_right _ hb)

/-- An operation on the orders and the stands of the unit leaves the arms, the outputs and the trackers. -/
theorem Keeps.onlyIn_orders (k : Keeps s t) (ha : t.arms = s.arms) (ho : t.outputs = s.outputs)
    (ht : t.trackers = s.trackers) :
    OnlyIn [.reels, .verifies, .rows, .schedules, .sequencers, .bus, .stands, .port] s t := by
  refine k.onlyIn fun b hb hm => ?_
  cases b
  case arms => exact ha
  case outputs => exact ho
  case trackers => exact ht
  all_goals simp at hb hm

end Parts

/-! ## The arbiter's choice leaves reads, index records and lapse counts, and sends what is queued -/

section Arbiter

variable {s : State} {st : StandId} {x : Request}

theorem requestTurn_exchanges (s : State) : (requestTurn s).bus.reads = s.bus.reads ∧
    (requestTurn s).bus.indexes = s.bus.indexes ∧ (requestTurn s).bus.lapses = s.bus.lapses := by
  unfold requestTurn
  (repeat' split) <;> exact ⟨rfl, rfl, rfl⟩

theorem grantTurn_exchanges (s : State) : (grantTurn s).bus.reads = s.bus.reads ∧
    (grantTurn s).bus.indexes = s.bus.indexes ∧ (grantTurn s).bus.lapses = s.bus.lapses := by
  unfold grantTurn
  split <;> exact ⟨rfl, rfl, rfl⟩

/-- The arbiter makes a request turn, a grant turn, or none. -/
theorem arbitrate_turn (s : State) :
    arbitrate s = s ∨ arbitrate s = requestTurn s ∨ arbitrate s = grantTurn s := by
  unfold arbitrate
  (repeat' split) <;> simp

theorem arbitrate_exchanges (s : State) : (arbitrate s).bus.reads = s.bus.reads ∧
    (arbitrate s).bus.indexes = s.bus.indexes ∧ (arbitrate s).bus.lapses = s.bus.lapses := by
  rcases arbitrate_turn s with e | e | e <;> rw [e]
  · exact ⟨rfl, rfl, rfl⟩
  · exact requestTurn_exchanges s
  · exact grantTurn_exchanges s

@[simp] theorem arbitrate_reads (s : State) : (arbitrate s).bus.reads = s.bus.reads := (arbitrate_exchanges s).1

@[simp] theorem arbitrate_indexes (s : State) : (arbitrate s).bus.indexes = s.bus.indexes :=
  (arbitrate_exchanges s).2.1

@[simp] theorem arbitrate_lapses (s : State) : (arbitrate s).bus.lapses = s.bus.lapses :=
  (arbitrate_exchanges s).2.2

/-- A request turn sends the head of one queue. -/
theorem requestTurn_asked_iff (hf : s.bus.pair = .free) :
    Asked st x (requestTurn s) ↔ x ∈ vget s.bus.queues st := by
  unfold requestTurn
  split
  · simp [Asked, hf]
  · next k _ =>
    split
    · simp [Asked, hf]
    · next r rest hq =>
      by_cases e : st = k
      · subst e
        simp [Asked, hq, or_comm, eq_comm]
      · simp [Asked, vget_vset_ne, e, Ne.symm e]

theorem grantTurn_asked_iff (hf : s.bus.pair = .free) :
    Asked st x (grantTurn s) ↔ x ∈ vget s.bus.queues st := by
  unfold grantTurn
  split <;> simp [Asked, hf]

/-- With a FREE pair, what is asked for after the arbiter's choice is what was queued before it. -/
theorem arbitrate_asked_iff (hf : s.bus.pair = .free) :
    Asked st x (arbitrate s) ↔ x ∈ vget s.bus.queues st := by
  rcases arbitrate_turn s with e | e | e <;> rw [e]
  · simp [Asked, hf]
  · exact requestTurn_asked_iff hf
  · exact grantTurn_asked_iff hf

theorem asked_arbitrate (h : x ∈ vget s.bus.queues st) : Asked st x (arbitrate s) := by
  cases hp : s.bus.pair with
  | free => exact (arbitrate_asked_iff hp).2 h
  | _ =>
    have : arbitrate s = s := by unfold arbitrate; rw [hp]
    rw [this]
    exact .inl h

end Arbiter

/-! ## Operations that queue, withdraw and abandon requests -/

/-- Only the queues of the bus may change, and a request in exchange may be abandoned: a FREE pair stays FREE. -/
def QueuesOnly (s t : State) : Prop :=
  ∃ q p, t.bus = { s.bus with queues := q, pair := p } ∧ (s.bus.pair = .free → p = .free)

section QueuesOnly

variable {s t u : State}

theorem QueuesOnly.refl (s : State) : QueuesOnly s s := ⟨_, _, rfl, id⟩

theorem QueuesOnly.of_bus (h : QueuesOnly s t) (hu : u.bus = t.bus) : QueuesOnly s u := by
  unfold QueuesOnly; rw [hu]; exact h

theorem QueuesOnly.trans (h : QueuesOnly s t) (k : QueuesOnly t u) : QueuesOnly s u := by
  obtain ⟨q, p, ht, hp⟩ := h
  obtain ⟨q', p', hu, hp'⟩ := k
  rw [ht] at hu hp'
  exact ⟨q', p', hu, fun hf => hp' (hp hf)⟩

theorem QueuesOnly.free (h : QueuesOnly s t) (hf : s.bus.pair = .free) : t.bus.pair = .free := by
  obtain ⟨q, p, ht, hp⟩ := h
  rw [ht]; exact hp hf

theorem QueuesOnly.reads (h : QueuesOnly s t) : t.bus.reads = s.bus.reads := by
  obtain ⟨q, p, ht, -⟩ := h
  rw [ht]

theorem QueuesOnly.indexes (h : QueuesOnly s t) : t.bus.indexes = s.bus.indexes := by
  obtain ⟨q, p, ht, -⟩ := h
  rw [ht]

theorem QueuesOnly.lapses (h : QueuesOnly s t) : t.bus.lapses = s.bus.lapses := by
  obtain ⟨q, p, ht, -⟩ := h
  rw [ht]

theorem QueuesOnly.exchangeEnded (h : QueuesOnly s t) (hf : s.bus.pair = .free) : ExchangeEnded (arbitrate t) :=
  ⟨t, rfl, h.free hf⟩

theorem QueuesOnly.grantEnded {st : StandId} (h : QueuesOnly s t) :
    GrantEnded st s (arbitrate (endGrant st t)) := by
  obtain ⟨q, p, ht, -⟩ := h
  refine ⟨endGrant st t, rfl, rfl, ?_, ?_, ?_, ?_, ?_⟩ <;> simp [endGrant, freePair, setLapses, ht]

theorem queueRequest_queuesOnly {st : StandId} {r : Request} (h : QueuesOnly s t) :
    QueuesOnly s (queueRequest st r t) := h.trans ⟨_, _, rfl, id⟩

theorem withdrawVerify_queuesOnly {st : StandId} {arm : Arm} (h : QueuesOnly s t) :
    QueuesOnly s (withdrawVerify st arm t) :=
  h.trans ⟨_, _, rfl, fun hf => by rw [hf]; rfl⟩

theorem endRun_queuesOnly {st : StandId} (h : QueuesOnly s t) : QueuesOnly s (endRun st t) := by
  unfold endRun
  split
  · exact withdrawVerify_queuesOnly h
  · exact h

theorem startIfDue_queuesOnly {r : ReelRecord} (h : QueuesOnly s t) : QueuesOnly s (startIfDue r t) := by
  unfold startIfDue
  split
  · exact queueRequest_queuesOnly h
  · exact h

theorem abortReturn_queuesOnly {row : OrderRow} {why : Option OrderReason} (h : QueuesOnly s t) :
    QueuesOnly s (abortReturn row why t) := by
  unfold abortReturn
  split
  · split
    · split
      · exact startIfDue_queuesOnly h
      · exact h
    · exact h
  · exact h

theorem coastUnlessLost_queuesOnly {row : OrderRow} {b : Bool} (h : QueuesOnly s t) :
    QueuesOnly s (coastUnlessLost row b t) := by
  unfold coastUnlessLost
  split
  · exact h
  · exact queueRequest_queuesOnly h

theorem releaseOrderOf_queuesOnly {r : RowId} {row : OrderRow} {o : OrderState} {why : Option OrderReason}
    {d : Option DoneResults} {b : Bool} (h : QueuesOnly s t) :
    QueuesOnly s (releaseOrderOf r row o why d b t) := by
  have abort : QueuesOnly s (if abortable t row = true then
      abortReturn row why (coastUnlessLost row b (setRow t r (some (closedRow row o why d))))
      else setRow t r (some (closedRow row o why d))) := by
    split
    · exact abortReturn_queuesOnly (coastUnlessLost_queuesOnly h)
    · exact h
  unfold releaseOrderOf
  refine QueuesOnly.of_bus ?_ (untagOrder_bus ..)
  split <;> exact abort

theorem closeRow_queuesOnly {r : RowId} {o : OrderState} {why : Option OrderReason}
    {d : Option DoneResults} {b : Bool} (h : QueuesOnly s t) : QueuesOnly s (closeRow r o why d b t).1 := by
  cases e : vget t.rows r with
  | none => rw [closeRow_none _ _ _ _ e]; exact h
  | some row =>
    cases ho : row.state.isOpen with
    | false => rw [closeRow_not_open _ _ _ _ e ho]; exact h
    | true => exact (releaseOrderOf_queuesOnly h).of_bus (closeRow_bus _ _ _ _ e ho)

theorem queuesOnly_evalClosed (s : State) : EvalClosed (QueuesOnly s) where
  schedule _ _ _ h := h
  flag u e n h := h.of_bus (raiseBit_bus e n u)
  row _ _ _ _ _ _ _ _ h := h
  close _ _ _ _ _ _ _ _ _ h := closeRow_queuesOnly h
  commit u r x p n b _ _ _ h := by
    refine QueuesOnly.of_bus (queueRequest_queuesOnly (st := x.stand) (r := accelRequest x.newArm
      (newReelOutside u x)) h) ?_
    simp [commitRow, queueRequest]

theorem closeOrder_queuesOnly {r : RowId} {o : OrderState} {why : OrderReason} {b : Bool}
    (h : QueuesOnly s t) : QueuesOnly s (closeOrder r o why b t) :=
  (queuesOnly_evalClosed s).settle _ _ (closeRow_queuesOnly h)

theorem faultOrder_queuesOnly {st : StandId} {why : OrderReason} (h : QueuesOnly s t) :
    QueuesOnly s (faultOrder st why t) := by
  have mark : QueuesOnly s (markFaultAfterPaste st t) := h
  unfold faultOrder
  split
  · exact h
  · split
    · exact h
    · split
      case h_5 =>
        split
        · exact mark
        · exact closeOrder_queuesOnly h
      case h_6 => exact mark
      case h_1 | h_2 | h_3 | h_4 => exact closeOrder_queuesOnly h
      all_goals exact h

theorem leaveService_queuesOnly {st : StandId} {c : Condition} {why : OrderReason} (h : QueuesOnly s t) :
    QueuesOnly s (leaveService st c why t) :=
  faultOrder_queuesOnly (endRun_queuesOnly (h.of_bus (by simp)))

theorem takeHardError_queuesOnly {st : StandId} {e : HardError} (h : QueuesOnly s t) :
    QueuesOnly s (takeHardError st e t) := by
  unfold takeHardError
  dsimp only
  split
  · exact h
  · exact leaveService_queuesOnly h
  all_goals
    split
    · exact h
    · exact h.of_bus (by simp)

theorem tryCloseDone_queuesOnly {st : StandId} (h : QueuesOnly s t) : QueuesOnly s (tryCloseDone st t) := by
  unfold tryCloseDone
  split
  · exact h
  · split
    · split
      · exact closeRow_queuesOnly h
      · exact h
    · exact h

theorem endRunOf_queuesOnly {st : StandId} {n : Nat} (h : QueuesOnly s t) : QueuesOnly s (endRunOf st n t) := by
  unfold endRunOf
  split
  · exact endRun_queuesOnly h
  · exact h

theorem newReelRemoved_queuesOnly {tag : Option Nat} (h : QueuesOnly s t) :
    QueuesOnly s (newReelRemoved tag t) := by
  unfold newReelRemoved
  split
  · exact closeOrder_queuesOnly h
  · exact h

end QueuesOnly

end Sys2Proof.Machine
end

section
/-! Messages on a grant that change nothing, and the answers to requests (R42, R142 to R148). -/

namespace Sys2Proof.Machine

open Sys2Proof

/-! ## Queries and unrouted messages -/

theorem onGrant_granted {st : StandId} {f : State → State} {s : State} (h : granted s st = true) :
    onGrant st f s = .next (arbitrate (endGrant st (f s))) := if_pos h

theorem armReport_some {s : State} {st : StandId} {arm : Arm} {r : ReelRecord} (h : boundReel s st arm = some r) :
    armReport s st (some arm) = beBytes 4 r.reel ++ beBytes 2 r.grade ++ beBytes 1 (reelStateCode r.state) ++
      beBytes 4 (((reportedRemaining s r).map (· / 10000)).getD 0xFFFFFFFF) := by
  have bound : (some arm).bind (boundReel s st) = some r := h
  unfold armReport
  rw [bound]
  cases h : reportedRemaining s r <;> simp only [h] <;> rfl

theorem armReport_none {s : State} {st : StandId} {arm : Option Arm} (h : arm.bind (boundReel s st) = none) :
    armReport s st arm = [] := by
  unfold armReport
  rw [h]

/-- Settles O45: each message changes the report frame at most, and then the grant ends. -/
theorem queriesAndUnrouted : Obligations.QueriesAndUnrouted := by
  intro st s hg
  refine ⟨fun arm r hr => ?_, fun arm hn => ?_, onGrant_granted hg⟩
  · exact (onGrant_granted hg).trans (by rw [sendReport, armReport_some hr]; rfl)
  · exact (onGrant_granted hg).trans (by rw [sendReport, armReport_none hn]; rfl)

/-! ## The ACCEPT of a request -/

section Accept

variable {s : State} {st : StandId} {r : Request} {ab : Bool} {lim : Nat}

theorem answered_own (h : s.bus.pair = .request st r ab lim) : answered s st r.kind r.arm = some (r, ab) := by
  simp [answered, h]

theorem exec_accept (h : s.bus.pair = .request st r ab lim) : exec (.accept st r.kind r.arm) s =
    .next (arbitrate (if ab then freePair s else acceptRequest st r (freePair s))) := by
  change execAccept st r.kind r.arm s = _
  unfold execAccept
  rw [answered_own h]

theorem turnRun_onlyAt (st : StandId) (arm : Option Arm) (s : State) :
    OnlyIn [.verifies] s (turnRun st arm s) ∧ OnlyAt st s.verifies (turnRun st arm s).verifies := by
  unfold turnRun
  split
  · split
    · exact ⟨setVerify_onlyIn, onlyAt_vset⟩
    · exact ⟨onlyIn_refl, onlyAt_refl⟩
  · exact ⟨onlyIn_refl, onlyAt_refl⟩

/-- An ACCEPT handed on changes the part that its kind names, for the stand alone. -/
theorem acceptRequest_cases (st : StandId) (r : Request) (s : State) :
    acceptRequest st r s = s ∨
    ((r.kind = .gauge ∨ r.kind = .status) ∧ ∃ k n, acceptRequest st r s = openRead st k n s) ∨
    (r.kind = .index ∧ acceptRequest st r s = setIndexRecord st (some (s.now + indexLimitMs)) s) ∨
    (r.kind = .verify ∧ acceptRequest st r s = turnRun st r.arm s) ∨
    (r.kind = .accel ∧ ∃ q, acceptRequest st r s = setSequencer s st (some q)) := by
  unfold acceptRequest
  split
  · next hk =>
    split
    · exact .inr (.inl ⟨.inl hk, _, _, rfl⟩)
    · exact .inl rfl
  · next hk => exact .inr (.inl ⟨.inr hk, _, _, rfl⟩)
  · next hk => exact .inr (.inr (.inl ⟨hk, rfl⟩))
  · next hk => exact .inr (.inr (.inr (.inl ⟨hk, rfl⟩)))
  · next hk =>
    split
    · exact .inr (.inr (.inr (.inr ⟨hk, _, rfl⟩)))
    · exact .inl rfl
  all_goals exact .inl rfl

/-- What an ACCEPT handed on leaves as it was. -/
structure AcceptKept (st : StandId) (r : Request) (s t : State) : Prop where
  pair : t.bus.pair = s.bus.pair
  verifies : r.kind ≠ .verify → t.verifies = s.verifies
  sequencers : r.kind ≠ .accel → t.sequencers = s.sequencers
  reads : r.kind ≠ .gauge → r.kind ≠ .status → t.bus.reads = s.bus.reads
  indexes : r.kind ≠ .index → t.bus.indexes = s.bus.indexes
  verifiesAt : OnlyAt st s.verifies t.verifies
  sequencersAt : OnlyAt st s.sequencers t.sequencers
  readsAt : OnlyAt st s.bus.reads t.bus.reads
  indexesAt : OnlyAt st s.bus.indexes t.bus.indexes
  only : OnlyIn [.verifies, .sequencers, .bus] s t

theorem acceptRequest_kept (st : StandId) (r : Request) (s : State) :
    AcceptKept st r s (acceptRequest st r s) := by
  rcases acceptRequest_cases st r s with e | ⟨hk, k, n, e⟩ | ⟨hk, e⟩ | ⟨hk, e⟩ | ⟨hk, q, e⟩ <;> rw [e]
  · exact ⟨rfl, fun _ => rfl, fun _ => rfl, fun _ _ => rfl, fun _ => rfl, onlyAt_refl, onlyAt_refl,
      onlyAt_refl, onlyAt_refl, onlyIn_refl⟩
  · exact ⟨rfl, fun _ => rfl, fun _ => rfl, fun hg hs => absurd hk (not_or.2 ⟨hg, hs⟩), fun _ => rfl,
      onlyAt_refl, onlyAt_refl, onlyAt_vset, onlyAt_refl, setBus_onlyIn.mono (by simp)⟩
  · exact ⟨rfl, fun _ => rfl, fun _ => rfl, fun _ _ => rfl, fun h => absurd hk h,
      onlyAt_refl, onlyAt_refl, onlyAt_refl, onlyAt_vset, setBus_onlyIn.mono (by simp)⟩
  · obtain ⟨only, at_⟩ := turnRun_onlyAt st r.arm s
    have hb : (turnRun st r.arm s).bus = s.bus := only .bus (by simp)
    have hq : (turnRun st r.arm s).sequencers = s.sequencers := only .sequencers (by simp)
    exact ⟨by rw [hb], fun h => absurd hk h, fun _ => hq, fun _ _ => by rw [hb], fun _ => by rw [hb], at_,
      onlyAt_of_eq hq, onlyAt_of_eq (by rw [hb]), onlyAt_of_eq (by rw [hb]), only.mono (by simp)⟩
  · exact ⟨rfl, fun _ => rfl, fun h => absurd hk h, fun _ _ => rfl, fun _ => rfl, onlyAt_refl, onlyAt_vset,
      onlyAt_refl, onlyAt_refl, setSequencer_onlyIn.mono (by simp)⟩

theorem turnRun_turns {v : VerifyRun} (hv : vget s.verifies st = some v) (ht : v.turning = none)
    (ha : r.arm = some v.arm) : vget (turnRun st r.arm s).verifies st =
      some { v with turning := some ⟨false, false, 0, [], s.now + 15000⟩ } := by
  simp [turnRun, hv, ht, ha, verifyMs]

theorem awaitsAccel_some {q : Sequencer} (hq : vget s.sequencers st = some q) (hp : q.phase = .accelerating)
    (hn : q.accepted = false) (ha : r.arm = some q.newArm) : awaitsAccel s st r.arm = some q := by
  simp [awaitsAccel, hq, hp, hn, ha, Option.filter]

end Accept

/-- Settles O37: the request in exchange is handed on by its kind, once the pair is FREE. -/
theorem acceptedRequests : Obligations.AcceptedRequests := by
  intro st r lim s
  refine ⟨fun h => exec_accept h, fun h => ⟨_, exec_accept h, ?_⟩⟩
  rw [if_neg (by simp)]
  have kept := acceptRequest_kept st r (freePair s)
  have only : OnlyIn [.verifies, .sequencers, .bus] s (arbitrate (acceptRequest st r (freePair s))) :=
    ((setBus_onlyIn.mono (by simp)).trans kept.only).trans ((arbitrate_onlyIn _).mono (by simp))
  simp only [arbitrate_reads, arbitrate_indexes, arbitrate_verifies, arbitrate_sequencers]
  refine ⟨⟨_, rfl, kept.pair⟩, fun arm hk ha => ?_, fun hk => ?_, fun hk => ?_, fun v hk hv ht ha => ?_,
    fun q hk hq hp hn ha => ?_, kept.verifies, kept.sequencers, kept.reads, kept.indexes, kept.verifiesAt,
    kept.sequencersAt, kept.readsAt, kept.indexesAt, only⟩
  · simp only [acceptRequest, hk, ha]
    exact vget_vset_self ..
  · simp only [acceptRequest, hk]
    exact vget_vset_self ..
  · simp only [acceptRequest, hk]
    exact vget_vset_self ..
  · simp only [acceptRequest, hk]
    exact turnRun_turns hv ht ha
  · simp only [acceptRequest, hk, awaitsAccel_some (s := freePair s) hq hp hn ha]
    exact vget_vset_self ..

/-! ## The REFUSE of a request -/

section Refuse

variable {s : State} {st : StandId} {r : Request} {why : StandReason}

theorem exec_refuse {ab : Bool} {lim : Nat} (h : s.bus.pair = .request st r ab lim) :
    exec (.refuse st r.kind r.arm why) s = .next (arbitrate
      (if ab then freePair s else refuseRequest st r (writeRefusal st r why (freePair s)))) := by
  change execRefuse st r.kind r.arm why s = _
  unfold execRefuse
  rw [answered_own h]

theorem refusalOutcome_some (h : r.kind.hasArm = r.arm.isSome) : ∃ o, refusalOutcome r.kind r.arm why = some o := by
  cases hk : r.kind <;> cases ha : r.arm <;> simp_all [RequestKind.hasArm, refusalOutcome]

theorem writeRefusal_some {o : LastOutcome} (h : refusalOutcome r.kind r.arm why = some o) :
    writeRefusal st r why s = writeOutcome st o s := by
  rw [writeRefusal, h]

theorem dropWaitingRun_onlyIn {arm : Option Arm} : OnlyIn [.verifies] s (dropWaitingRun st arm s) := by
  unfold dropWaitingRun
  split
  · split
    · exact setVerify_onlyIn
    · exact onlyIn_refl
  · exact onlyIn_refl

theorem dropWaitingRun_drops {v : VerifyRun} (hv : vget s.verifies st = some v) (ht : v.turning = none)
    (ha : r.arm = some v.arm) : vget (dropWaitingRun st r.arm s).verifies st = none := by
  simp [dropWaitingRun, hv, ht, ha]

/-- The REFUSE of a request that belongs to no order reaches the stand's verification run at most. -/
theorem refuseRequest_onlyIn (ha : r.kind ≠ .accel) (hr : r.kind ≠ .retract) :
    OnlyIn [.verifies] s (refuseRequest st r s) := by
  unfold refuseRequest
  split
  · next hk => exact absurd hk ha
  · exact dropWaitingRun_onlyIn
  · next hk => exact absurd hk hr
  all_goals exact onlyIn_refl

theorem refuseRequest_fixed (st : StandId) (r : Request) (s : State) :
    (refuseRequest st r s).stands = s.stands ∧ (refuseRequest st r s).arms = s.arms ∧
      (refuseRequest st r s).outputs = s.outputs ∧ (refuseRequest st r s).trackers = s.trackers := by
  have drop (b : Block) (hb : b ∉ [Block.verifies]) : sameIn s (dropWaitingRun st r.arm s) b :=
    dropWaitingRun_onlyIn b hb
  unfold refuseRequest
  split
  · split <;> simp
  · exact ⟨drop .stands (by simp), drop .arms (by simp), drop .outputs (by simp), drop .trackers (by simp)⟩
  · split <;> simp
  all_goals exact ⟨rfl, rfl, rfl, rfl⟩

theorem dropWaitingRun_queuesOnly {arm : Option Arm} : QueuesOnly s (dropWaitingRun st arm s) :=
  (QueuesOnly.refl s).of_bus (dropWaitingRun_onlyIn .bus (by simp))

theorem refuseRequest_queuesOnly : QueuesOnly s (refuseRequest st r s) := by
  unfold refuseRequest
  split
  · split
    · exact closeOrder_queuesOnly (.refl s)
    · exact .refl s
  · exact dropWaitingRun_queuesOnly
  · split
    · exact tryCloseDone_queuesOnly ((QueuesOnly.refl s).of_bus rfl)
    · exact .refl s
  all_goals exact .refl s

theorem refuseRequest_closes {q : Sequencer} {row : OrderRow} (hk : r.kind = .accel)
    (hq : vget s.sequencers st = some q) (hp : q.phase = .accelerating) (hn : q.accepted = false)
    (ha : r.arm = some q.newArm) (hrow : vget s.rows q.row = some row) (ho : row.state.isOpen = true) :
    vget (refuseRequest st r s).rows q.row = some (closedRow row .failed (some .accelRefused) none) := by
  simp only [refuseRequest, hk, awaitsAccel_some hq hp hn ha]
  exact closeOrder_rows hrow ho rfl

end Refuse

/-- Settles O38: the refusal is written as the last outcome and then handed on by the request's kind. -/
theorem refusedRequests : Obligations.RefusedRequests := by
  intro st r lim why s
  refine ⟨fun h => exec_refuse h, fun h hr => ⟨_, exec_refuse h, ?_⟩⟩
  rw [if_neg (by simp)]
  obtain ⟨o, ho⟩ := refusalOutcome_some (why := why) hr
  rw [writeRefusal_some ho]
  have written : OnlyIn [.verifies, .bus, .stands, .port] s (writeOutcome st o (freePair s)) :=
    ((setBus_onlyIn.and_then setStand_onlyIn).and_then raiseStand_onlyIn).mono (by simp)
  have keeps : Keeps s (arbitrate (refuseRequest st r (writeOutcome st o (freePair s)))) :=
    arbitrate_keeps (refuseRequest_keeps (writeOutcome_keeps (freePair_keeps (.refl s))))
  obtain ⟨hst, harms, houts, htr⟩ := refuseRequest_fixed st r (writeOutcome st o (freePair s))
  refine ⟨refuseRequest_queuesOnly.exchangeEnded ?_, ?_, ?_, ?_, fun v hk hv ht ha => ?_,
    fun q row hk hq hp hn ha hrow ho => ?_, fun hna hnr => ?_, ?_⟩
  · simp
    rfl
  · rw [arbitrate_stands, hst, writeOutcome_stands, vget_vset_self]
    exact ho.symm
  · rw [arbitrate_stands, hst, writeOutcome_stands, vget_vset_self]
    rfl
  · rw [arbitrate_stands, hst, writeOutcome_stands]
    exact onlyAt_vset
  · simp only [arbitrate_verifies, refuseRequest, hk]
    exact dropWaitingRun_drops (by simpa using hv) ht ha
  · rw [arbitrate_rows, refuseRequest_closes hk (by simpa using hq) hp hn ha (by simpa using hrow) ho]
    rfl
  · exact (written.trans ((refuseRequest_onlyIn hna hnr).mono (by simp))).trans ((arbitrate_onlyIn _).mono (by simp))
  · exact keeps.onlyIn_orders ((arbitrate_arms _).trans (harms.trans (by simp)))
      ((arbitrate_outputs _).trans (houts.trans (by simp))) ((arbitrate_trackers _).trans (htr.trans (by simp)))

end Sys2Proof.Machine
end

section
/-! A stand that leaves service without a message of its own: the stop hold, a silent stand, and the limits of
reads and index records (R142, R144, R145, R147, R162 to R165). -/

namespace Sys2Proof.Machine

open Sys2Proof

/-! ## What a stand that leaves service meets, whatever ends the event -/

section LeftService

variable {s b u v : State} {st : StandId} {c : Condition} {why : OrderReason}

/-- Two states of which the second has the orders, the stands, the records and the queues of the first, and its
flags at least. -/
structure StandsAs (u v : State) : Prop where
  rows : v.rows = u.rows
  sequencers : v.sequencers = u.sequencers
  stands : v.stands = u.stands
  reels : v.reels = u.reels
  verifies : v.verifies = u.verifies
  queues : v.bus.queues = u.bus.queues
  flags : FlagsKept u.port.flags v.port.flags

theorem StandsAs.refl (u : State) : StandsAs u u := ⟨rfl, rfl, rfl, rfl, rfl, rfl, .refl _⟩

theorem StandsAs.endGrant_raised (u : State) (st : StandId) : StandsAs u (endGrant st (raiseStand st u)) where
  rows := by simp
  sequencers := by simp
  stands := by simp
  reels := by simp
  verifies := by simp
  queues := by simp [endGrant, freePair, setLapses]
  flags := (endGrant_keeps (raiseStand_keeps (.refl u))).flags

theorem StandsAs.ofEndGrant (k : StandsAs u v) (st : StandId) : StandsAs (endGrant st u) v :=
  ⟨k.rows, k.sequencers, k.stands, k.reels, k.verifies, k.queues, k.flags⟩

theorem FlagsKept.flagSet (h : FlagsKept u.port.flags v.port.flags) {n : Nat} (hn : flagSet u n = true) :
    flagSet v n = true := h n hn

/-- The order of a stand that leaves service, seen in a state that stands as the one an event leaves. -/
theorem OrderFaulted.standsAs (h : OrderFaulted st why s (arbitrate u)) (hf : u.bus.pair = .free)
    (k : StandsAs u v) : OrderFaulted st why s (arbitrate v) := by
  intro r row ho hr
  obtain ⟨before, past⟩ := h r row ho hr
  simp only [arbitrate_rows, arbitrate_sequencers, arbitrate_stands] at before past ⊢
  rw [k.rows, k.sequencers, k.stands]
  refine ⟨fun hp => ?_, past⟩
  obtain ⟨closed, raised, alone⟩ := before hp
  refine ⟨closed, fun he => ?_, fun hw hz => ⟨(alone hw hz).1, fun hl => asked_arbitrate ?_⟩⟩
  · have := raised he
    rw [flagSet, arbitrate_port] at this ⊢
    exact k.flags _ this
  · rw [k.queues]
    exact (arbitrate_asked_iff hf).1 ((alone hw hz).2 hl)

theorem NewReelReturned.of_reels {t t' : State} (h : NewReelReturned st s t) (ht : t'.reels = t.reels) :
    NewReelReturned st s t' := by
  have same (n : Nat) : reelOf t' n = reelOf t n := by
    simp only [reelOf, (SameNumbers.of_reels ht).findReel_eq, ht]
  intro r row new ho hr hp hz hn hnt
  rw [same]
  exact h r row new ho hr hp hz hn hnt

/-- A stand out of service, before its order is acted on (R163, R165). -/
def standDown (st : StandId) (c : Condition) (s : State) : State :=
  endRun st (raiseStand st (modStand st (fun x => { x with condition := c, stopHold := none }) s))

theorem leaveService_eq : leaveService st c why s = faultOrder st why (standDown st c s) := rfl

theorem standDown_stands : (standDown st c s).stands =
    vset s.stands st { vget s.stands st with condition := c, stopHold := none } := by
  simp [standDown, modStand]

theorem standDown_sameOrders : SameOrders s (standDown st c s) where
  rows := by simp [standDown]
  schedules := by simp [standDown]
  sequencers := by simp [standDown]
  settings := (endRun_keeps (st := st) (raiseStand_keeps (st := st) (.refl _))).settings

theorem standDown_reels : (standDown st c s).reels = s.reels := by simp [standDown]

theorem standDown_verifies : vget (standDown st c s).verifies st = none := by
  rw [standDown, endRun_verifies, vget_vset_self]

theorem leaveService_stand : (leaveService st c why s).stands =
    vset s.stands st { vget s.stands st with condition := c, stopHold := none } := by
  rw [leaveService_eq, faultOrder_stands, standDown_stands]

/-- What a stand meets that leaves service, its open order included. -/
structure LeftService (st : StandId) (c : Condition) (why : OrderReason) (s t : State) : Prop where
  out : OutOfService st c s t
  order : OrderFaulted st why s t
  reel : NewReelReturned st s t

/-- An event that takes a stand out of service leaves it so, whatever the event does to its grant and flags. -/
theorem leaveService_left (same : SameOrders s b) (tagged : TaggedKept s b) (hc : c ≠ .online)
    (hw : why ≠ .tapeNotFound) (k : StandsAs (leaveService st c why b) v) :
    LeftService st c why s (arbitrate v) := by
  have down : SameOrders s (standDown st c b) := same.trans standDown_sameOrders
  have kept : TaggedKept s (standDown st c b) := fun n r hr ht he =>
    TaggedKept.of_reels (standDown_reels (s := b)) n r (tagged n r hr ht he) ht he
  have offline : isOnline (standDown st c b) st = false := by
    simpa [isOnline, standDown_stands] using hc
  have granted := (leaveService_eq (why := why) ▸ k).ofEndGrant st
  refine ⟨⟨?_, ?_, ?_, fun he => ?_⟩, ?_, ?_⟩
  · rw [arbitrate_stands, k.stands, leaveService_stand, vget_vset_self]
  · rw [arbitrate_stands, k.stands, leaveService_stand, vget_vset_self]
  · rw [arbitrate_verifies, k.verifies, leaveService_eq, faultOrder_verifies_offline offline,
      standDown_verifies]
  · have raised : flagSet (raiseStand st (modStand st (fun x => { x with
        condition := c, stopHold := none }) b)) st.val = true :=
      flagSet_raiseStand (by rw [standParam, ← same.settings] at he; exact he)
    have still := (faultOrder_keeps (st := st) (why := why) (endRun_keeps (st := st) (.refl _))).flags.flagSet
      raised
    rw [flagSet, arbitrate_port]
    exact k.flags _ still
  · exact down.orderFaulted ((faultOrder_orderFaulted st why _).standsAs rfl granted)
  · exact down.newReelReturned kept ((faultOrder_newReelReturned st why _ hw).of_reels (by
      rw [arbitrate_reels, arbitrate_reels, granted.reels]))

/-- A hard error takes an ONLINE stand out of service (R162, R163). -/
theorem takeHardError_left {e : HardError} (same : SameOrders s b) (tagged : TaggedKept s b)
    (ho : (vget b.stands st).condition = .online) (k : StandsAs (takeHardError st e b) v) :
    LeftService st .fault .standFault s (arbitrate v) := by
  have left : takeHardError st e b = leaveService st .fault .standFault
      (setStand b st { vget b.stands st with errors := addError e (vget b.stands st).errors }) := by
    simp only [takeHardError, ho]
  rw [left] at k
  exact leaveService_left (b := setStand b st _) (same.trans ⟨rfl, rfl, rfl, rfl⟩) tagged (by simp) (by simp) k

theorem takeHardError_onlyIn {e : HardError} :
    OnlyIn [.reels, .verifies, .rows, .schedules, .sequencers, .bus, .stands, .port] b
      (arbitrate (takeHardError st e b)) :=
  (arbitrate_keeps (takeHardError_keeps (.refl b))).onlyIn_orders (by simp) (by simp) (by simp)

end LeftService

/-! ## The stop hold -/

theorem reachTime_sameOrders (n : Nat) (s : State) : SameOrders s (reachTime n s) := ⟨rfl, rfl, rfl, rfl⟩

theorem exec_stopHold {st : StandId} {s : State} {e : Nat} (ho : (vget s.stands st).condition = .online)
    (he : (vget s.stands st).stopHold = some e) : exec (.stopHoldTimerEnd st) s =
      .next (arbitrate (leaveService st .lockedOut .localStop (reachTime e s))) := by
  change execStopHoldTimerEnd st s = _
  simp [execStopHoldTimerEnd, ho, he]

/-- Settles O36: the timer's end takes the stand out of service as LOCKED_OUT. -/
theorem stopHoldLocksOut : Obligations.StopHoldLocksOut := by
  intro st s e ho he
  have left : LeftService st .lockedOut .localStop s
      (arbitrate (leaveService st .lockedOut .localStop (reachTime e s))) :=
    leaveService_left (reachTime_sameOrders e s) (.of_reels rfl) (by simp) (by simp) (.refl _)
  obtain ⟨-, -, ended, raised⟩ := left.out
  have keeps : Keeps (reachTime e s) (arbitrate (leaveService st .lockedOut .localStop (reachTime e s))) :=
    arbitrate_keeps (leaveService_keeps (.refl _) ho (by simp))
  have only : OnlyIn [.now] s (reachTime e s) := setNow_onlyIn
  refine ⟨_, exec_stopHold ho he, ?_, ?_, ended, keeps.now, raised, left.order, left.reel,
    only.and_then (keeps.onlyIn_orders (by simp) (by simp) (by simp))⟩
  · rw [arbitrate_stands, leaveService_stand, vget_vset_self]
    rfl
  · rw [arbitrate_stands, leaveService_stand]
    exact onlyAt_vset

/-! ## Reply times and grants -/

section Silent

variable {s : State} {st : StandId} {r : Request} {ab : Bool} {lim : Nat}

theorem exec_replyTimeEnd (h : s.bus.pair = .request st r ab lim) : exec .replyTimeEnd s =
    .next (arbitrate (takeHardError st .noReply (freePair (reachTime lim s)))) := by
  change execReplyTimeEnd s = _
  unfold execReplyTimeEnd
  rw [h]

theorem exec_grantLapse_below (h : s.bus.pair = .grant st lim) (hn : vget s.bus.lapses st < 2) :
    exec .grantLapse s =
      .next (arbitrate (setLapses st (vget s.bus.lapses st + 1) (freePair (reachTime lim s)))) := by
  change execGrantLapse s = _
  unfold execGrantLapse
  rw [h]
  dsimp only
  rw [if_pos (by omega)]

theorem exec_grantLapse_third (h : s.bus.pair = .grant st lim) (hn : 2 ≤ vget s.bus.lapses st) :
    exec .grantLapse s =
      .next (arbitrate (takeHardError st .noReply (setLapses st 0 (freePair (reachTime lim s))))) := by
  change execGrantLapse s = _
  unfold execGrantLapse
  rw [h]
  dsimp only
  rw [if_neg (by omega)]

end Silent

/-- Settles O39: NO_REPLY takes an ONLINE stand out of service; a first or second lapse is counted alone. -/
theorem silentStands : Obligations.SilentStands := by
  refine ⟨fun st r ab lim s h ho => ?_, fun st lim s h hn => ?_, fun st lim s h hn ho => ?_⟩
  · have left : LeftService st .fault .standFault s
        (arbitrate (takeHardError st .noReply (freePair (reachTime lim s)))) :=
      takeHardError_left (b := freePair (reachTime lim s)) ⟨rfl, rfl, rfl, rfl⟩ (.of_reels rfl) ho (.refl _)
    have only : OnlyIn [.now, .bus] s (freePair (reachTime lim s)) := setNow_onlyIn.and_then setBus_onlyIn
    refine ⟨_, exec_replyTimeEnd h, (takeHardError_queuesOnly (.refl _)).exchangeEnded rfl, left.out, ?_,
      left.order, left.reel, ?_, (arbitrate_keeps (takeHardError_keeps (.refl _))).now,
      (only.and_then takeHardError_onlyIn).mono (by simp)⟩
    · rw [arbitrate_stands, takeHardError_stand (s := freePair (reachTime lim s)) ho]
      rfl
    · rw [arbitrate_stands]
      exact (takeHardError_contextHeld ..).1
  · have only : OnlyIn [.now, .bus] s (setLapses st (vget s.bus.lapses st + 1) (freePair (reachTime lim s))) :=
      ((setNow_onlyIn.and_then setBus_onlyIn).and_then setBus_onlyIn).mono (by simp)
    refine ⟨_, exec_grantLapse_below h hn, ⟨_, rfl, rfl⟩, ?_, ?_,
      (only.and_then (arbitrate_onlyIn _)).mono (by simp)⟩
    · rw [arbitrate_lapses]
      exact vget_vset_self ..
    · rw [arbitrate_lapses]
      exact onlyAt_vset
  · have left : LeftService st .fault .standFault s
        (arbitrate (takeHardError st .noReply (setLapses st 0 (freePair (reachTime lim s))))) :=
      takeHardError_left (b := setLapses st 0 (freePair (reachTime lim s))) ⟨rfl, rfl, rfl, rfl⟩ (.of_reels rfl)
        ho (.refl _)
    have queues := takeHardError_queuesOnly (st := st) (e := .noReply)
      (.refl (setLapses st 0 (freePair (reachTime lim s))))
    refine ⟨_, exec_grantLapse_third h hn, queues.exchangeEnded rfl, ?_, left.out, ?_, left.order, left.reel⟩
    · rw [arbitrate_lapses, queues.lapses]
      exact vget_vset_self ..
    · rw [arbitrate_stands, takeHardError_stand (s := setLapses st 0 (freePair (reachTime lim s))) ho]
      rfl

/-! ## Reads and index records -/

section Limits

variable {s : State} {st : StandId}

/-- The last outcome of a read that no RESPONSE has answered (R22, R158). -/
def unanswered : ReadKind → LastOutcome
  | .gauge arm => .gaugeNoReply arm none
  | .status => .statusNoResponse

theorem exec_readLimit {k : ReadKind} {o : OutstandingRead}
    (h : (vget s.bus.reads st).find? (fun x => x.read == k) = some o) : exec (.readLimit st k) s =
      .next (writeOutcome st (unanswered k) (closeRead st k (reachTime o.limit s))) := by
  have found : (vget s.bus.reads st).find? (readIs k) = some o := h
  change execReadLimit st k s = _
  unfold execReadLimit
  rw [found]
  cases k <;> rfl

theorem exec_indexTimeout {e : Nat} (h : vget s.bus.indexes st = some e) : exec (.indexTimeout st) s =
    .next (arbitrate (takeHardError st .indexTimeout (writeOutcome st .indexTimeout
      (setIndexRecord st none (reachTime e s))))) := by
  change execIndexTimeout st s = _
  unfold execIndexTimeout
  rw [h]

theorem writeOutcome_onlyIn {o : LastOutcome} : OnlyIn [.stands, .port] s (writeOutcome st o s) :=
  setStand_onlyIn.and_then raiseStand_onlyIn

theorem writeOutcome_port (o : LastOutcome) (s : State) : (writeOutcome st o s).port = raisedPort s st :=
  raiseStand_port ..

end Limits

/-- Settles O40: a read's limit writes its outcome, an index record's limit faults an ONLINE stand besides. -/
theorem readAndIndexLimits : Obligations.ReadAndIndexLimits := by
  refine ⟨fun st s k o h => ⟨_, exec_readLimit h, ?_⟩, fun st s e he ho => ⟨_, exec_indexTimeout he, ?_⟩⟩
  · have only : OnlyIn [.now, .bus] s (closeRead st k (reachTime o.limit s)) :=
      setNow_onlyIn.and_then setBus_onlyIn
    refine ⟨?_, ?_, ?_, writeOutcome_port .., (writeOutcome_keeps (.refl _)).now,
      only.and_then writeOutcome_onlyIn⟩
    · rw [writeOutcome_bus]
      exact vget_vset_self ..
    · rw [writeOutcome_stands, vget_vset_self]
      cases k <;> rfl
    · rw [writeOutcome_stands]
      exact onlyAt_vset
  · generalize hb : writeOutcome st .indexTimeout (setIndexRecord st none (reachTime e s)) = b
    have stands : b.stands = vset s.stands st { vget s.stands st with outcome := .indexTimeout } := by
      rw [← hb, writeOutcome_stands]; rfl
    have only : OnlyIn [.now, .bus, .stands, .port] s b := by
      rw [← hb]
      exact (setNow_onlyIn.and_then setBus_onlyIn).and_then writeOutcome_onlyIn
    have same : SameOrders s b := ⟨only .rows (by simp), only .schedules (by simp), only .sequencers (by simp),
      only .settings (by simp)⟩
    have online : (vget b.stands st).condition = .online := by rw [stands, vget_vset_self]; exact ho
    have left : LeftService st .fault .standFault s (arbitrate (takeHardError st .indexTimeout b)) :=
      takeHardError_left same (.of_reels (only .reels (by simp))) online (.refl _)
    obtain ⟨-, map, -, outcome⟩ := takeHardError_contextHeld st .indexTimeout b
    refine ⟨?_, ?_, ?_, left.out, ?_, left.order, left.reel, (only.and_then takeHardError_onlyIn).mono (by simp)⟩
    · rw [arbitrate_indexes, (takeHardError_queuesOnly (.refl b)).indexes, ← hb, writeOutcome_bus]
      exact vget_vset_self ..
    · rw [arbitrate_stands, outcome, stands, vget_vset_self]
    · rw [arbitrate_stands, map, stands, vget_vset_self]
    · rw [arbitrate_stands, takeHardError_stand online, stands, vget_vset_self]
      rfl

end Sys2Proof.Machine
end

section
/-! The end of a verification run and the RESPONSE of a gauge (R21, R26 to R28). -/

namespace Sys2Proof.Machine

open Sys2Proof

section Records

variable {s t : State} {st : StandId} {i : SlotId} {r : ReelRecord} {n : Nat}

theorem raisedPort_congr (hs : t.settings = s.settings) (hp : t.port = s.port) :
    raisedPort t st = raisedPort s st := by
  unfold raisedPort standParam
  rw [hs, hp]

theorem endGrant_reads : (endGrant st s).bus.reads = s.bus.reads := rfl

theorem endGrant_onlyIn : OnlyIn [.bus] s (endGrant st s) :=
  (setBus_onlyIn (x := (setLapses st 0 s).bus)).trans setBus_onlyIn

theorem findReel_number (hi : findReel s n = some i) (hr : vget s.reels i = some r) : r.reel = n := by
  have := List.find?_some hi
  simpa [hr] using this

theorem modReel_some {f : ReelRecord → ReelRecord} (hi : findReel s n = some i) (hr : vget s.reels i = some r) :
    modReel n f s = setReel s i (some (f r)) := by
  simp [modReel, hi, hr]

theorem endRun_onlyIn : OnlyIn [.verifies, .bus] s (endRun st s) := by
  unfold endRun
  split
  · exact setVerify_onlyIn.and_then setBus_onlyIn
  · exact onlyIn_refl

end Records

/-! ## The end of a run -/

section Finish

variable {s : State} {st : StandId} {i : SlotId} {r : ReelRecord} {n : Nat} {v : VerifyResult}

/-- PASSED makes a PREPARED record with an outside circumference READY (R27). -/
theorem withResult_eq (v : VerifyResult) (r : ReelRecord) : withResult v r =
    if v = .passed ∧ r.state = .prepared ∧ r.outside.isSome = true
    then { r with verify := .passed, state := .ready } else { r with verify := v } := by
  unfold withResult
  by_cases h : v = .passed ∧ r.state = .prepared ∧ r.outside.isSome = true
  · obtain ⟨rfl, hs, ho⟩ := h
    simp [hs, ho]
  · rw [if_neg h, if_neg (by simpa [and_assoc] using h)]

theorem judgeRun_eq (x : Turning) : judgeRun x = if x.count < 2 then .shortTurn
    else if 0 ∈ x.lastTwo then .noTape
    else if ∃ n ∈ x.lastTwo, 2 ≤ n then .doubleTape else .passed := by
  simp [judgeRun]

/-- What the end of a run with a result leaves: the record's result, the context IDLE, the flag raised. -/
structure RunFinished (st : StandId) (i : SlotId) (y : ReelRecord) (s t : State) : Prop where
  reels : t.reels = vset s.reels i (some y)
  verifies : t.verifies = vset s.verifies st none
  port : t.port = raisedPort s st
  only : OnlyIn [.reels, .verifies, .bus, .port] s t

theorem finishRun_finished (hi : findReel s n = some i) (hr : vget s.reels i = some r) :
    RunFinished st i (withResult v r) s (finishRun st n v s) := by
  have ended : OnlyIn [.verifies, .bus] s (endRun st s) := endRun_onlyIn
  have slot : findReel (endRun st s) n = some i :=
    ((SameNumbers.of_reels (endRun_reels st s)).findReel_eq n).trans hi
  have found : finishRun st n v s = raiseStand st (setReel (endRun st s) i (some (withResult v r))) := by
    rw [finishRun, modReel_some slot (by rw [endRun_reels]; exact hr)]
  rw [found]
  refine ⟨?_, ?_, ?_, ((ended.and_then setReel_onlyIn).and_then raiseStand_onlyIn).mono (by simp)⟩
  · rw [raiseStand_reels, setReel_reels, endRun_reels]
  · rw [raiseStand_verifies]
    exact endRun_verifies st s
  · rw [raiseStand_port]
    exact raisedPort_congr (ended .settings (by simp)) (ended .port (by simp))

end Finish

/-- Settles O41: both events end the run with a result, VERIFY DONE with the judgement. -/
theorem verificationEnds : Obligations.VerificationEnds := by
  intro st s v x i r hv hx hm hi hr
  refine ⟨fun hg => ?_, ?_⟩
  · have done : exec (.verifyDone st v.arm) s =
        .next (arbitrate (endGrant st (finishRun st v.reel (judgeRun x) s))) := by
      rw [exec, execVerifyDone, onGrant_granted hg]
      simp [takeVerifyDone, hv, hx, hm]
    have finished := finishRun_finished (st := st) (v := judgeRun x) hi hr
    have only : OnlyIn [.reels, .verifies, .bus, .port] s
        (arbitrate (endGrant st (finishRun st v.reel (judgeRun x) s))) :=
      ((finished.only.and_then endGrant_onlyIn).and_then (arbitrate_onlyIn _)).mono (by simp)
    refine ⟨_, done, ?_, judgeRun_eq x, ?_, ?_, ?_, ?_, only⟩
    · rw [arbitrate_reels, endGrant_reels, finished.reels, vget_vset_self, withResult_eq]
    · rw [arbitrate_reels, endGrant_reels, finished.reels]
      exact onlyAt_vset
    · rw [arbitrate_verifies, endGrant_verifies, finished.verifies, vget_vset_self]
    · rw [arbitrate_verifies, endGrant_verifies, finished.verifies]
      exact onlyAt_vset
    · rw [arbitrate_port, endGrant_port, finished.port]
  · have timeout : exec (.verifyTimeout st) s =
        .next (arbitrate (finishRun st v.reel .timeout (reachTime x.deadline s))) := by
      change execVerifyTimeout st s = _
      simp [execVerifyTimeout, hv, hx, hm]
    have finished := finishRun_finished (s := reachTime x.deadline s) (st := st) (v := .timeout) hi hr
    have only : OnlyIn [.now] s (reachTime x.deadline s) := setNow_onlyIn
    refine ⟨_, timeout, ?_, ?_, ?_, ?_, ?_, ?_,
      ((only.and_then finished.only).and_then (arbitrate_onlyIn _)).mono (by simp)⟩
    · rw [arbitrate_reels, finished.reels, vget_vset_self]
      rfl
    · rw [arbitrate_reels, finished.reels]
      exact onlyAt_vset
    · rw [arbitrate_verifies, finished.verifies, vget_vset_self]
    · rw [arbitrate_verifies, finished.verifies]
      exact onlyAt_vset
    · rw [arbitrate_port, finished.port]
      rfl
    · exact (arbitrate_keeps (finishRun_keeps (.refl _))).now

/-! ## The RESPONSE of a gauge -/

section Gauge

variable {s : State} {st : StandId} {arm : Arm} {i : SlotId} {r : ReelRecord} {n d : Nat}

/-- A stored circumference makes a PREPARED record with verify result PASSED READY (R21). -/
theorem withOutside_eq (c : Nat) (r : ReelRecord) : withOutside c r =
    if r.state = .prepared ∧ r.verify = .passed then { r with outside := some c, state := .ready }
    else { r with outside := some c } := by
  unfold withOutside
  by_cases h : r.state = .prepared ∧ r.verify = .passed
  · simp [h]
  · rw [if_neg h, if_neg (by simpa using h)]

theorem exec_gauge {body : BitVec 16} {o : OutstandingRead} (hg : granted s st = true)
    (ho : (vget s.bus.reads st).find? (fun x => x.read == .gauge arm) = some o) :
    exec (.response st (.gauge arm body)) s = .next (arbitrate (endGrant st
      (applyGauge st arm o.reel body.toNat (closeRead st (.gauge arm) s)))) := by
  have taken : takeResponse st (.gauge arm body) s =
      applyGauge st arm o.reel body.toNat (closeRead st (.gauge arm) s) := by
    have found : (vget s.bus.reads st).find? (readIs (.gauge arm)) = some o := ho
    simp only [takeResponse, found]
  rw [exec, execResponse, onGrant_granted hg, taken]

variable (hi : findReel s n = some i) (hr : vget s.reels i = some r) (hst : r.stand = st) (ha : r.arm = some arm)

include hi hr hst ha

theorem applyGauge_stores (hl : 150 ≤ d) (hu : d ≤ 1400) : applyGauge st arm (some n) d s =
    writeOutcome st (.gaugeStored arm) (setReel s i (some (withOutside (circumferenceOf d) r))) := by
  have number := findReel_number hi hr
  simp [applyGauge, reelOf_eq hi hr, hst, ha, hl, hu, modReel_some (number ▸ hi) hr]

theorem applyGauge_range (hd : d < 150 ∨ 1400 < d) : applyGauge st arm (some n) d s =
    writeOutcome st (.gaugeRange arm) s := by
  have out : ¬ (150 ≤ d ∧ d ≤ 1400) := by omega
  simp only [applyGauge, Option.bind_some, reelOf_eq hi hr]
  rw [if_pos (by simp [hst, ha]), if_neg (by simpa using out)]

end Gauge

/-- Settles O42: the RESPONSE is applied to the record found, whose range test decides. -/
theorem gaugeResponse : Obligations.GaugeResponse := by
  intro st arm d s o n i r hg ho hn hi hr hst ha
  rw [exec_gauge hg ho, hn]
  generalize hc : closeRead st (.gauge arm) s = c
  have closed : OnlyIn [.bus] s c := hc ▸ setBus_onlyIn
  have reels : c.reels = s.reels := closed .reels (by simp)
  have stands : c.stands = s.stands := closed .stands (by simp)
  have reads : vget c.bus.reads st = (vget s.bus.reads st).filter (fun x => x.read != .gauge arm) := by
    rw [← hc]
    exact vget_vset_self ..
  have found : findReel c n = some i := ((SameNumbers.of_reels reels).findReel_eq n).trans hi
  have record : vget c.reels i = some r := by rw [reels]; exact hr
  have port : ∀ o u, OnlyIn [.reels] c u → (writeOutcome st o u).port = raisedPort s st := fun o u h =>
    (writeOutcome_port o u).trans (raisedPort_congr
      ((h .settings (by simp)).trans (closed .settings (by simp)))
      ((h .port (by simp)).trans (closed .port (by simp))))
  have done : ∀ o u, OnlyIn [.reels] c u →
      OnlyIn [.reels, .bus, .stands, .port] s (arbitrate (endGrant st (writeOutcome st o u))) := fun o u h =>
    ((((closed.and_then h).and_then writeOutcome_onlyIn).and_then endGrant_onlyIn).and_then
      (arbitrate_onlyIn _)).mono (by simp)
  by_cases hd : 150 ≤ d.toNat ∧ d.toNat ≤ 1400
  · have only : OnlyIn [.reels] c (setReel c i (some (withOutside (circumferenceOf d.toNat) r))) := setReel_onlyIn
    rw [applyGauge_stores found record hst ha hd.1 hd.2]
    refine ⟨_, rfl, ?_, fun _ _ => ⟨?_, ?_, ?_⟩, fun hx => absurd hd (by omega), ?_, ?_, done _ _ only⟩
    · rw [arbitrate_reads, endGrant_reads, writeOutcome_bus]
      exact reads
    · rw [arbitrate_reels, endGrant_reels, writeOutcome_reels, setReel_reels, vget_vset_self, withOutside_eq]
      rfl
    · rw [arbitrate_stands, endGrant_stands, writeOutcome_stands, vget_vset_self]
    · rw [arbitrate_reels, endGrant_reels, writeOutcome_reels, setReel_reels, reels]
      exact onlyAt_vset
    · rw [arbitrate_port, endGrant_port, port _ _ only]
    · rw [arbitrate_stands, endGrant_stands, writeOutcome_stands, setReel_stands, stands]
      exact onlyAt_vset
  · rw [applyGauge_range found record hst ha (by omega)]
    refine ⟨_, rfl, ?_, fun hl hu => absurd ⟨hl, hu⟩ hd, fun _ => ⟨?_, ?_⟩, ?_, ?_, done _ _ onlyIn_refl⟩
    · rw [arbitrate_reads, endGrant_reads, writeOutcome_bus]
      exact reads
    · rw [arbitrate_reels, endGrant_reels, writeOutcome_reels, reels]
    · rw [arbitrate_stands, endGrant_stands, writeOutcome_stands, vget_vset_self]
    · rw [arbitrate_port, endGrant_port, port _ _ onlyIn_refl]
    · rw [arbitrate_stands, endGrant_stands, writeOutcome_stands, stands]
      exact onlyAt_vset

end Sys2Proof.Machine
end

section
/-! ARM LOADED and ARM EMPTIED (R22, R37, R38, R139, R159, R166). -/

namespace Sys2Proof.Machine

open Sys2Proof

/-! ## The end of a report's event -/

/-- What a report of an arm leaves: the stand's flag raised, the grant ended, the arbiter's choice made. -/
def reported (st : StandId) (u : State) : State := arbitrate (endGrant st (raiseStand st u))

section Reported

variable {s u : State} {st : StandId} {L : List Block}

theorem reported_onlyIn : OnlyIn [.bus, .port] u (reported st u) :=
  ((raiseStand_onlyIn.and_then endGrant_onlyIn).and_then (arbitrate_onlyIn _)).mono (by simp)

theorem reported_reels : (reported st u).reels = u.reels := reported_onlyIn .reels (by simp)

theorem reported_rows : (reported st u).rows = u.rows := reported_onlyIn .rows (by simp)

theorem reported_stands : (reported st u).stands = u.stands := reported_onlyIn .stands (by simp)

theorem reported_trackers : (reported st u).trackers = u.trackers := reported_onlyIn .trackers (by simp)

theorem reported_reads : (reported st u).bus.reads = u.bus.reads := by
  rw [reported, arbitrate_reads, endGrant_reads, raiseStand_bus]

theorem reported_port : (reported st u).port = raisedPort u st := by
  rw [reported, arbitrate_port, endGrant_port, raiseStand_port]

theorem reported_keeps : Keeps u (reported st u) := arbitrate_keeps (endGrant_keeps (raiseStand_keeps (.refl u)))

theorem reported_flag (hs : u.settings = s.settings) (he : standParam s st 13 = 1) :
    flagSet (reported st u) st.val = true := by
  have raised : flagSet (raiseStand st u) st.val = true :=
    flagSet_raiseStand (by rw [standParam, hs]; exact he)
  exact (arbitrate_keeps (endGrant_keeps (st := st) (.refl _))).flags _ raised

/-- A report that reaches neither settings nor port raises the stand's flag alone. -/
theorem reported_quiet (h : OnlyIn L s u) (hs : Block.settings ∉ L) (hp : Block.port ∉ L) :
    (reported st u).port = raisedPort s st ∧ OnlyIn (L ++ [.bus, .port]) s (reported st u) :=
  ⟨reported_port.trans (raisedPort_congr (h .settings hs) (h .port hp)), h.and_then reported_onlyIn⟩

theorem reported_grantEnded (h : QueuesOnly s u) : GrantEnded st s (reported st u) :=
  (h.of_bus (raiseStand_bus st u)).grantEnded

end Reported

/-! ## An arm reported emptied, by the record on it -/

/-- The gauge of an arm withdrawn and the slot of its record written. -/
def slotTaken (st : StandId) (arm : Arm) (i : SlotId) (y : Option ReelRecord) (s : State) : State :=
  setReel (withdrawGauge st arm s) i y

section Emptied

variable {s : State} {st : StandId} {arm : Arm} {i : SlotId} {r : ReelRecord} {y : Option ReelRecord}

theorem withdrawGauge_onlyIn : OnlyIn [.bus] s (withdrawGauge st arm s) := setBus_onlyIn

theorem slotTaken_onlyIn : OnlyIn [.bus, .reels] s (slotTaken st arm i y s) :=
  withdrawGauge_onlyIn.and_then setReel_onlyIn

theorem slotTaken_sameOrders : SameOrders s (slotTaken st arm i y s) := ⟨rfl, rfl, rfl, rfl⟩

theorem slotTaken_reels : (slotTaken st arm i y s).reels = vset s.reels i y := rfl

theorem setLoaded_onlyIn {b : Bool} : OnlyIn [.stands] s (setLoaded st arm b s) := setStand_onlyIn

theorem endRunOf_onlyIn {n : Nat} : OnlyIn [.verifies, .bus] s (endRunOf st n s) := by
  unfold endRunOf
  split
  · exact endRun_onlyIn
  · exact onlyIn_refl

theorem armReportedEmpty_none (h : boundSlot s st arm = none) :
    armReportedEmpty st arm s = setLoaded st arm false (withdrawGauge st arm s) := by
  simp [armReportedEmpty, reelEmptied, h]

variable (hi : boundSlot s st arm = some i) (hr : vget s.reels i = some r)

include hi hr

theorem armReportedEmpty_expired (hs : r.state = .expired) :
    armReportedEmpty st arm s = setLoaded st arm false (slotTaken st arm i none s) := by
  simp [armReportedEmpty, reelEmptied, hi, hr, hs, slotTaken]

theorem armReportedEmpty_unbound (hs : r.state = .mounted ∨ r.state = .prepared ∨ r.state = .ready) :
    armReportedEmpty st arm s = setLoaded st arm false (newReelRemoved r.tag
      (endRunOf st r.reel (slotTaken st arm i (some (unboundRecord r)) s))) := by
  rcases hs with hs | hs | hs <;> simp [armReportedEmpty, reelEmptied, hi, hr, hs, slotTaken]

theorem armReportedEmpty_committed (hs : r.state = .committed) : armReportedEmpty st arm s =
    takeHardError st .armFault (setLoaded st arm false (slotTaken st arm i none s)) := by
  simp [armReportedEmpty, reelEmptied, hi, hr, hs, slotTaken]

theorem armReportedEmpty_running (hs : r.state = .running) : armReportedEmpty st arm s =
    takeHardError st .armFault (setLoaded st arm false (stopTracker st (slotTaken st arm i none s))) := by
  simp [armReportedEmpty, reelEmptied, hi, hr, hs, slotTaken]

end Emptied

section EmptiedBus

variable {s : State} {st : StandId} {arm : Arm}

theorem reelEmptied_queuesOnly : QueuesOnly (withdrawGauge st arm s) (reelEmptied st arm s).1 := by
  have gauge := QueuesOnly.refl (withdrawGauge st arm s)
  unfold reelEmptied
  dsimp only
  split
  · exact gauge
  · split
    · exact gauge
    · split
      case h_1 | h_2 | h_3 => exact gauge
      all_goals exact newReelRemoved_queuesOnly (endRunOf_queuesOnly gauge)

theorem armReportedEmpty_queuesOnly : QueuesOnly (withdrawGauge st arm s) (armReportedEmpty st arm s) := by
  have emptied : QueuesOnly (withdrawGauge st arm s) (setLoaded st arm false (reelEmptied st arm s).1) :=
    reelEmptied_queuesOnly.of_bus (setLoaded_bus ..)
  unfold armReportedEmpty
  dsimp only
  split
  · exact takeHardError_queuesOnly emptied
  · exact emptied

theorem setLoaded_emptied_stands : (setLoaded st arm false (reelEmptied st arm s).1).stands =
    vset s.stands st { vget s.stands st with loaded := armSet (vget s.stands st).loaded arm false } := by
  rw [setLoaded_stands, reelEmptied_stands]

theorem armReportedEmpty_stand : OnlyAt st s.stands (armReportedEmpty st arm s).stands ∧
    (vget (armReportedEmpty st arm s).stands st).loaded = armSet (vget s.stands st).loaded arm false := by
  have stands := setLoaded_emptied_stands (s := s) (st := st) (arm := arm)
  unfold armReportedEmpty
  dsimp only
  split
  · obtain ⟨only, -, loaded, -⟩ := takeHardError_contextHeld st .armFault
      (setLoaded st arm false (reelEmptied st arm s).1)
    rw [stands] at only loaded
    exact ⟨fun j hj => (only j hj).trans (onlyAt_vset j hj), loaded.trans (by rw [vget_vset_self])⟩
  · rw [stands]
    exact ⟨onlyAt_vset, by rw [vget_vset_self]⟩

end EmptiedBus

/-! ## A record freed under an order (R38, R166) -/

section Freed

variable {s b t : State} {st : StandId} {i : SlotId} {r : ReelRecord}

theorem Keeps.free_slot (k : Keeps s t) (h : vget s.reels i = none) : vget t.reels i = none := by
  cases e : vget t.reels i with
  | none => rfl
  | some y =>
    obtain ⟨x, hx, -⟩ := k.reels i y e
    rw [h] at hx
    cases hx

/-- A freed record that is not the new reel of an order is none that an order hands back. -/
theorem NewReelReturned.of_freed (h : NewReelReturned st b t) (same : SameOrders s b)
    (hb : b.reels = vset s.reels i none) (hr : vget s.reels i = some r) (hs : r.state = .running) :
    NewReelReturned st s t := by
  have found : ∀ n x, reelOf s n = some x → x.state ≠ .running → reelOf b n = some x := by
    intro n x hx hne
    obtain ⟨j, hj, hxj⟩ := reelOf_some hx
    have ne : j ≠ i := by
      rintro rfl
      rw [hr] at hxj
      exact hne (Option.some.inj hxj ▸ hs)
    have still : vget b.reels j = some x := by rw [hb, vget_vset_ne _ _ _ _ ne, hxj]
    refine reelOf_eq (find?_of_imp hj ?_ fun k hk => ?_) still
    · simp [still, findReel_number hj hxj]
    · rw [hb, vget_vset] at hk
      split at hk
      · cases hk
      · exact hk
  intro k row new ho hrow hp hz hn ht
  have returned := h k row new (same.openRow_eq.trans ho) (by rw [same.rows]; exact hrow)
    (mt (same.pastBoundary_iff row).1 hp) ((same.aloneOnLine_iff k).2 hz)
  refine ⟨fun hx => (returned (found _ _ hn ?_) ht).1 hx, fun hx => (returned (found _ _ hn ?_) ht).2 hx⟩
  · rw [hx]; simp
  · rw [hx]; simp

/-- A freed COMMITTED or RUNNING record faults the stand (R166), whatever the state b in which it is taken. -/
theorem armFault_faults (same : SameOrders s b) (ho : (vget b.stands st).condition = .online)
    (hb : b.reels = vset s.reels i none) : vget (reported st (takeHardError st .armFault b)).reels i = none ∧
      OutOfService st .fault s (reported st (takeHardError st .armFault b)) ∧
      (vget (reported st (takeHardError st .armFault b)).stands st).errors.armFault = true ∧
      OrderFaulted st .standFault s (reported st (takeHardError st .armFault b)) ∧
      NewReelReturned st b (reported st (takeHardError st .armFault b)) := by
  have left : LeftService st .fault .standFault b (reported st (takeHardError st .armFault b)) :=
    takeHardError_left ⟨rfl, rfl, rfl, rfl⟩ (.of_reels rfl) ho (.endGrant_raised _ st)
  refine ⟨?_, same.outOfService left.out, ?_, same.orderFaulted left.order, left.reel⟩
  · rw [reported_reels]
    exact (takeHardError_keeps (.refl b)).free_slot (by rw [hb, vget_vset_self])
  · rw [reported_stands, takeHardError_stand ho]
    rfl

end Freed

/-! ## The new reel of a waiting order (R38) -/

section Removed

variable {s : State} {k : RowId} {i : SlotId} {r : ReelRecord} {o : OrderState} {why : OrderReason} {b : Bool}

theorem closeOrder_untagged (h : vget s.reels i = some r) (ht : r.tag = none) :
    vget (closeOrder k o why b s).reels i = some r :=
  (untagged_evalClosed ht).settle _ _ (closeRow_untagged h ht)

end Removed

section ExecReports

variable {s : State} {st : StandId} {arm : Arm} (hg : granted s st = true)

include hg

theorem exec_armLoaded : exec (.armLoaded st arm) s = .next (reported st (setLoaded st arm true s)) := by
  rw [exec, execArmLoaded, onGrant_granted hg]
  rfl

theorem exec_armEmptied : exec (.armEmptied st arm) s = .next (reported st (armReportedEmpty st arm s)) := by
  rw [exec, execArmEmptied, onGrant_granted hg]
  rfl

end ExecReports

/-! ## ARM EMPTIED by the state of the record -/

section ByState

variable {s : State} {st : StandId} {arm : Arm} {i : SlotId} {r : ReelRecord}

/-- The stand context of an arm reported emptied that takes no hard error. -/
theorem emptied_stand {u w : State} (hu : u = setLoaded st arm false w) (hw : w.stands = s.stands) :
    vget (reported st u).stands st =
      { vget s.stands st with loaded := armSet (vget s.stands st).loaded arm false } := by
  rw [reported_stands, hu, setLoaded_stands, vget_vset_self, hw]

variable (hi : boundSlot s st arm = some i) (hr : vget s.reels i = some r)

include hi hr

theorem emptied_expired (hs : r.state = .expired) : let t := reported st (armReportedEmpty st arm s)
    vget t.reels i = none ∧ OnlyAt i s.reels t.reels ∧
      (vget t.stands st).condition = (vget s.stands st).condition ∧ t.port = raisedPort s st ∧
      OnlyIn [.reels, .bus, .stands, .port] s t := by
  have eq := armReportedEmpty_expired hi hr hs
  obtain ⟨port, only⟩ := reported_quiet (st := st) ((slotTaken_onlyIn (s := s) (st := st) (arm := arm) (i := i)
    (y := none)).and_then (setLoaded_onlyIn (st := st) (arm := arm) (b := false))) (by simp) (by simp)
  have reels : (reported st (armReportedEmpty st arm s)).reels = vset s.reels i none := by
    rw [reported_reels, eq, setLoaded_reels, slotTaken_reels]
  refine ⟨?_, ?_, ?_, eq ▸ port, eq ▸ only.mono (by simp)⟩
  · rw [reels, vget_vset_self]
  · rw [reels]
    exact onlyAt_vset
  · rw [emptied_stand (s := s) eq rfl]

theorem emptied_untagged (hs : r.state = .mounted ∨ r.state = .prepared ∨ r.state = .ready) (ht : r.tag = none) :
    let t := reported st (armReportedEmpty st arm s)
    vget t.reels i = some { r with state := .staged, arm := none, verify := .untested } ∧
      OnlyAt i s.reels t.reels ∧ (vget t.stands st).condition = (vget s.stands st).condition ∧
      t.port = raisedPort s st ∧ OnlyIn [.reels, .verifies, .bus, .stands, .port] s t := by
  have eq : armReportedEmpty st arm s = setLoaded st arm false
      (endRunOf st r.reel (slotTaken st arm i (some (unboundRecord r)) s)) := by
    rw [armReportedEmpty_unbound hi hr hs, ht]
    rfl
  obtain ⟨port, only⟩ := reported_quiet (st := st) (((slotTaken_onlyIn (s := s) (st := st) (arm := arm) (i := i)
    (y := some (unboundRecord r))).and_then (endRunOf_onlyIn (st := st) (n := r.reel))).and_then
    (setLoaded_onlyIn (st := st) (arm := arm) (b := false))) (by simp) (by simp)
  have reels : (reported st (armReportedEmpty st arm s)).reels = vset s.reels i (some (unboundRecord r)) := by
    rw [reported_reels, eq, setLoaded_reels, endRunOf_reels, slotTaken_reels]
  refine ⟨?_, ?_, ?_, eq ▸ port, eq ▸ only.mono (by simp)⟩
  · rw [reels, vget_vset_self, unboundRecord, ht]
  · rw [reels]
    exact onlyAt_vset
  · rw [emptied_stand (s := s) eq (by rw [endRunOf_stands]; rfl)]

theorem emptied_newReel {g : Nat} {k : RowId} {row : OrderRow} (hs : r.state = .ready) (ht : r.tag = some g)
    (hk : rowOfTag s g = some k) (hrow : vget s.rows k = some row) (hw : row.state.waiting = true) :
    let t := reported st (armReportedEmpty st arm s)
    vget t.reels i = some { r with state := .staged, arm := none, verify := .untested, tag := none } ∧
      vget t.rows k = some { row with
        state := .failed, past := false, place := none, results := none, reason := some .newReelRemoved } ∧
      (standParam s row.stand 13 = 1 → flagSet t (8 + k.val) = true) ∧
      (vget t.stands st).condition = (vget s.stands st).condition := by
  generalize hb : endRunOf st r.reel (slotTaken st arm i (some (unboundRecord r)) s) = b
  have same : SameOrders s b := hb ▸ slotTaken_sameOrders.trans (endRunOf_sameOrders r.reel)
  have eq : armReportedEmpty st arm s = setLoaded st arm false (closeOrder k .failed .newReelRemoved false b) := by
    have tag : rowOfTag b g = some k := by rw [rowOfTag, same.rows]; exact hk
    rw [armReportedEmpty_unbound hi hr (.inr (.inr hs)), hb, ht, newReelRemoved, Option.bind_some, tag]
  have hrow' : vget b.rows k = some row := by rw [same.rows]; exact hrow
  have ho : row.state.isOpen = true := by
    cases hx : row.state <;> simp_all [OrderState.isOpen, OrderState.waiting]
  have record : vget b.reels i = some (unboundRecord r) := by
    rw [← hb, endRunOf_reels, slotTaken_reels, vget_vset_self]
  refine ⟨?_, ?_, fun he => ?_, ?_⟩
  · rw [reported_reels, eq, setLoaded_reels, closeOrder_untagged record rfl]
    rfl
  · rw [reported_rows, eq, setLoaded_rows, closeOrder_rows hrow' ho rfl]
    rfl
  · have raised : flagSet (closeOrder k .failed .newReelRemoved false b) (8 + k.val) = true :=
      closeOrder_flag hrow' ho (by rw [standParam, same.settings]; exact he)
    rw [eq]
    exact (reported_keeps (u := setLoaded st arm false _)).flags _ raised
  · rw [emptied_stand (s := s) eq (by rw [closeOrder_stands, ← hb, endRunOf_stands]; rfl)]

theorem emptied_inUse (hs : r.state = .committed ∨ r.state = .running)
    (ho : (vget s.stands st).condition = .online) : let t := reported st (armReportedEmpty st arm s)
    vget t.reels i = none ∧ OutOfService st .fault s t ∧ (vget t.stands st).errors.armFault = true ∧
      OrderFaulted st .standFault s t ∧
      (r.state = .running → vget t.trackers st = none ∧ NewReelReturned st s t) := by
  rcases hs with hs | hs
  · have online : (vget (setLoaded st arm false (slotTaken st arm i none s)).stands st).condition = .online := by
      rw [setLoaded_stands, vget_vset_self]
      exact ho
    obtain ⟨reels, out, error, order, -⟩ := armFault_faults (s := s) (i := i)
      (b := setLoaded st arm false (slotTaken st arm i none s)) ⟨rfl, rfl, rfl, rfl⟩ online rfl
    rw [armReportedEmpty_committed hi hr hs]
    exact ⟨reels, out, error, order, fun h => by rw [hs] at h; cases h⟩
  · generalize hb : setLoaded st arm false (stopTracker st (slotTaken st arm i none s)) = b
    have same : SameOrders s b := hb ▸ ⟨rfl, rfl, rfl, rfl⟩
    have freed : b.reels = vset s.reels i none := hb ▸ rfl
    have online : (vget b.stands st).condition = .online := by
      rw [← hb, setLoaded_stands, vget_vset_self]
      exact ho
    obtain ⟨reels, out, error, order, returned⟩ := armFault_faults same online freed
    rw [armReportedEmpty_running hi hr hs, hb]
    refine ⟨reels, out, error, order, fun _ => ⟨?_, returned.of_freed same freed hr hs⟩⟩
    rw [reported_trackers, takeHardError_trackers, ← hb]
    exact vget_vset_self ..

end ByState

/-- Settles O44: the report of an arm, by the record found on it. -/
theorem armReports : Obligations.ArmReports := by
  intro st arm s hg
  refine ⟨⟨_, exec_armLoaded hg, ?_⟩, ⟨_, exec_armEmptied hg, ?_⟩⟩
  · obtain ⟨port, only⟩ := reported_quiet (st := st) (setLoaded_onlyIn (s := s) (st := st) (arm := arm)
      (b := true)) (by simp) (by simp)
    refine ⟨?_, ?_, port, reported_grantEnded (.refl s), only.mono (by simp)⟩
    · rw [reported_stands, setLoaded_stands, vget_vset_self]
    · rw [reported_stands, setLoaded_stands]
      exact onlyAt_vset
  have queues := armReportedEmpty_queuesOnly (s := s) (st := st) (arm := arm)
  have reads : (reported st (armReportedEmpty st arm s)).bus.reads = (withdrawGauge st arm s).bus.reads := by
    rw [reported_reads, queues.reads]
  obtain ⟨only, loaded⟩ := armReportedEmpty_stand (s := s) (st := st) (arm := arm)
  have ended : GrantEnded st (withdrawGauge st arm s) (reported st (armReportedEmpty st arm s)) :=
    reported_grantEnded queues
  refine ⟨ended, ?_, ?_, ?_, ?_, fun he => reported_flag
    (armReportedEmpty_keeps (.refl s)).settings he, fun hn => ?_, fun i r hi hr => ⟨emptied_expired hi hr,
    emptied_untagged hi hr, fun g k row => emptied_newReel hi hr, emptied_inUse hi hr⟩⟩
  · rw [reads]
    exact vget_vset_self ..
  · rw [reads]
    exact onlyAt_vset
  · rw [reported_stands]
    exact only
  · rw [reported_stands]
    exact loaded
  · have eq := armReportedEmpty_none hn
    obtain ⟨port, quiet⟩ := reported_quiet (st := st) ((withdrawGauge_onlyIn (s := s) (st := st)
      (arm := arm)).and_then (setLoaded_onlyIn (st := st) (arm := arm) (b := false))) (by simp) (by simp)
    exact ⟨emptied_stand eq rfl, eq ▸ port, eq ▸ quiet.mono (by simp)⟩

end Sys2Proof.Machine
end

section
/-! The commit at a reached commit point (R76, R78, R107, R108). -/

namespace Sys2Proof.Machine

open Sys2Proof

section Commit

variable {s t : State} {r : RowId} {row : OrderRow} {p : Placement} {a c : Nat} {late : Bool} {new : ReelRecord}

/-- An operation on the orders of the unit that reaches no stand context. -/
theorem Keeps.onlyIn_lines (k : Keeps s t) (ha : t.arms = s.arms) (ho : t.outputs = s.outputs)
    (ht : t.trackers = s.trackers) (hs : t.stands = s.stands) :
    OnlyIn [.reels, .verifies, .rows, .schedules, .sequencers, .bus, .port] s t := by
  refine k.onlyIn fun b hb hm => ?_
  cases b
  case arms => exact ha
  case outputs => exact ho
  case trackers => exact ht
  case stands => exact hs
  all_goals simp at hb hm

theorem newReelOutside_eq (hn : reelOf s row.newReel = some new) (hc : new.outside = some c) :
    newReelOutside s row = c := by
  simp [newReelOutside, hn, hc]

/-- The order's ACCEL waits in the queue once the row has committed. -/
theorem mem_commitRow : accelRequest row.newArm (newReelOutside s row) ∈
    vget (commitRow r row p a late s).1.bus.queues row.stand := by
  have queued := mem_queueRequest_self row.stand (accelRequest row.newArm (newReelOutside s row)) s
  simpa [commitRow, queueRequest] using queued

theorem commitRow_sequencer : vget (commitRow r row p a late s).1.sequencers row.stand =
    some (freshSequencer r row.newArm ((reelOf s row.expiring).bind (·.arm)) (newReelOutside s row)
      (standParam s row.stand 7)) := by
  simp [commitRow, frozenSettings]

theorem commitRow_reels : (commitRow r row p a late s).1.reels = (commitReel row s).reels := by
  simp [commitRow]

/-- The READY new reel becomes COMMITTED (R30). -/
theorem commitReel_ready (hn : reelOf s row.newReel = some new) (ht : new.tag = some row.tag)
    (hs : new.state = .ready) : reelOf (commitReel row s) row.newReel = some { new with state := .committed } := by
  obtain ⟨i, hi, hr⟩ := reelOf_some hn
  have order : orderReel s row row.newReel = some i := by simp [orderReel, hi, hr, ht, Option.filter]
  have eq : commitReel row s = setReel s i (some { new with state := .committed }) := by
    simp [commitReel, order, hr, hs]
  have slot : findReel (commitReel row s) row.newReel = some i := by
    rw [eq, (setReel_sameNumbers (y := { new with state := .committed }) hr rfl).findReel_eq, hi]
  exact reelOf_eq slot (by rw [eq, setReel_reels, vget_vset_self])

/-- A commit freezes the entry of its row, so that no entry of a line that it has alone waits for placement. -/
theorem commitRow_frozen (hz : AloneOnLine s row.stand r) :
    ∀ e ∈ vget (commitRow r row p a late s).1.schedules (lineOf s row.stand), e.frozen = true := by
  have schedule : vget (commitRow r row p a late s).1.schedules (lineOf s row.stand) =
      (vget s.schedules (lineOf s row.stand)).map
        (fun e => if e.row == r then { e with frozen := true } else e) := by
    simp [commitRow, freezeEntry]
  intro e he
  rw [schedule] at he
  obtain ⟨x, hx, rfl⟩ := List.mem_map.1 he
  split
  · rfl
  · next hne => exact hz x hx (by simpa using hne)

theorem commitRow_flag (hr : vget s.rows r = some row) (ho : row.state.isOpen = true)
    (he : standParam s row.stand 13 = 1) : flagSet (commitRow r row p a late s).1 (8 + r.val) = true :=
  flagSet_raiseRow_of_settings (commitRow_keeps (.refl s) hr ho).settings he

/-- A reached commit point with go set above the splice floor commits (R76). -/
theorem exec_commitPoint (hr : vget s.rows r = some row) (hs : row.state = .armed) (hp : row.past = false)
    (hg : row.go = true) (hpl : row.place = some p) (ha : row.distance = some a)
    (hd : (standPos s row.stand - (p.q - BitVec.ofNat 32 a)).toNat < 2147483648)
    (hf : (vget s.settings.floors (lineOf s row.stand)).splice ≤ standSpeed s row.stand) :
    ∃ n, exec (.commitPointReport r) s = .next (arbitrate (settle (lineOf s row.stand) n
      (commitRow r row p a (atOrAfter (standPos s row.stand) (back p.plate a)) s).1)) := by
  have due : commitPointDue s r = true := by
    have reached : atOrAfter (standPos s row.stand) (back p.q a) = true := (atOrAfter_iff ..).2 hd
    simp [commitPointDue, hr, hs, hp, OrderRow.commitPoint, OrderState.waiting, hpl, ha, reached]
  have floor : belowSpliceFloor s (lineOf s row.stand) = false := by
    simpa [belowSpliceFloor, standSpeed] using hf
  have commits := commitTest_commits hr (by rw [hs]; rfl) hpl ha hg floor
  refine ⟨(commitRow r row p a (atOrAfter (standPos s row.stand) (back p.plate a)) s).2, ?_⟩
  change execCommitPointReport r s = _
  rw [execCommitPointReport, reportCommitPoint, if_pos due, testOrder, commits, lineOfRow, hr]
  rfl

end Commit

/-- Settles O26: the commit's row stays as the evaluations leave it, and the rest of it when there are none. -/
theorem commitPointCommits : Obligations.CommitPointCommits := by
  intro r s row p a c new hr hs hp hg hpl ha hd hf hn hc
  obtain ⟨n, step⟩ := exec_commitPoint hr hs hp hg hpl ha hd hf
  have ho : row.state.isOpen = true := by rw [hs]; rfl
  have outside : newReelOutside s row = c := newReelOutside_eq hn hc
  generalize hu : (commitRow r row p a (atOrAfter (standPos s row.stand) (back p.plate a)) s).1 = u at step
  have only : Keeps s u := hu ▸ commitRow_keeps (.refl s) hr ho
  have keeps : Keeps u (arbitrate (settle (lineOf s row.stand) n u)) := arbitrate_keeps (settle_keeps (.refl u))
  refine ⟨_, step, ?_, fun he => ?_, fun hz => ?_, (only.trans keeps).onlyIn_lines ?_ ?_ ?_ ?_⟩
  · rw [arbitrate_rows]
    refine settle_rows ?_ rfl
    rw [← hu, commitRow_rows, vget_vset_self, outside]
    rfl
  · exact keeps.flags _ (hu ▸ commitRow_flag hr ho he)
  · have still : settle (lineOf s row.stand) n u = u := settle_of_frozen (hu ▸ commitRow_frozen hz) n
    rw [still]
    refine ⟨?_, asked_arbitrate ?_, fun hready ht => ?_⟩
    · rw [arbitrate_sequencers, ← hu, commitRow_sequencer, outside]
    · rw [← hu, ← outside]
      exact mem_commitRow
    · have reels : (arbitrate u).reels = (commitReel row s).reels := by rw [arbitrate_reels, ← hu, commitRow_reels]
      rw [reelOf, (SameNumbers.of_reels reels).findReel_eq, reels]
      exact commitReel_ready hn ht hready
  all_goals simp [← hu]

end Sys2Proof.Machine
end

section
/-! A closed interval at the sequencer of a stand (R110, R113 to R115). -/

namespace Sys2Proof.Machine

open Sys2Proof

/-! ## The mark, for an arm that no tracker and no verification follows -/

section Mark

variable {s u : State} {st : StandId} {arm : Arm} {m : Pos} {w : Nat}

/-- The state with a revolution mark latched in its arm's context (R6). -/
def marked (s : State) (st : StandId) (arm : Arm) (w : Nat) : State := { s with
  arms := vset s.arms st (armSet (vget s.arms st) arm
    ⟨some (standPos s st), some w, 0, some (standPos s st + 0x40000000#32)⟩) }

theorem marked_onlyIn : OnlyIn [.arms] s (marked s st arm w) := by
  intro b hb
  cases b
  case arms => simp at hb
  all_goals rfl

theorem setArmContext_marked (hm : (armContext s st arm).lastMark = some m) (hw : w = (standPos s st - m).toNat) :
    setArmContext s st arm (markArm (armContext s st arm) (standPos s st)) = marked s st arm w := by
  subst hw
  simp only [markArm, hm, Option.map_some]
  rfl

theorem trackerInterval_other {p : Pos} (h : ∀ x, vget s.trackers st = some x → x.arm ≠ arm) :
    trackerInterval st arm w p s = s := by
  unfold trackerInterval
  split
  · rfl
  · next x hx => rw [if_neg (by simpa using h x hx)]

theorem verifyMark_onlyIn {n : Option Nat} : OnlyIn [.verifies] s (verifyMark st arm n s) := by
  unfold verifyMark
  split
  · split
    · exact setVerify_onlyIn
    · exact onlyIn_refl
  · exact onlyIn_refl

theorem verifyMark_other_arm {n : Option Nat} (h : ∀ v, vget s.verifies st = some v → v.arm ≠ arm) :
    verifyMark st arm n s = s := by
  unfold verifyMark
  split
  · next v hv => rw [if_neg (by simpa using h v hv)]
  · rfl

/-- The interval that a mark closes is delivered to the sequencer and then to the run (R8). -/
theorem exec_mark (hm : (armContext s st arm).lastMark = some m) (hw : w = (standPos s st - m).toNat)
    (ht : ∀ x, vget s.trackers st = some x → x.arm ≠ arm) : exec (.revolutionMark st arm) s =
      .next (arbitrate (verifyMark st arm (some (armContext s st arm).tapeCount)
        (sequencerInterval st arm w (armContext s st arm).tapeCount (marked s st arm w)))) := by
  have context := setArmContext_marked hm hw
  change execRevolutionMark st arm s = _
  unfold execRevolutionMark
  dsimp only
  rw [hm]
  dsimp only
  rw [context, deliverInterval, distance, ← hw,
    trackerInterval_other (s := marked s st arm w) (by exact ht)]

theorem exec_mark_quiet (hm : (armContext s st arm).lastMark = some m) (hw : w = (standPos s st - m).toNat)
    (ht : ∀ x, vget s.trackers st = some x → x.arm ≠ arm) (hv : ∀ v, vget s.verifies st = some v → v.arm ≠ arm)
    (hu : sequencerInterval st arm w (armContext s st arm).tapeCount (marked s st arm w) = u)
    (hs : u.verifies = s.verifies) : exec (.revolutionMark st arm) s = .next (arbitrate u) := by
  rw [exec_mark hm hw ht, hu, verifyMark_other_arm (by rw [hs]; exact hv)]

end Mark

/-! ## What the sequencer makes of an interval -/

theorem raiseRow_eq (r : RowId) (st : StandId) (s : State) :
    raiseRow r st s = { s with port := raisedRowPort s r st } := by
  unfold raiseRow raiseBit raisedRowPort standEnabled rowBit
  split <;> rfl

section Interval

variable {s : State} {st : StandId} {arm : Arm} {q : Sequencer} {w n : Nat} {row : OrderRow} {c : Commitment}

theorem inTolerance_eq_false_iff (q : Sequencer) (w : Nat) : inTolerance q w = false ↔
    ¬ (q.circumference ≤ w + q.tolerance ∧ w ≤ q.circumference + q.tolerance) := by
  rw [← inTolerance_iff, Bool.not_eq_true]

theorem modRow_committed {k : RowId} {f : OrderRow → OrderRow} (h : vget s.rows k = some row)
    (hc : row.state.committed = true) : modRow k f s = setRow s k (some (f row)) := by
  simp [modRow, h, hc]

/-- A state that the sequencer reports to a committed row (R132). -/
theorem writeRowState_committed {k : RowId} {x : OrderState} (h : vget s.rows k = some row)
    (hc : row.state.committed = true) :
    writeRowState k st x s = raiseRow k st (setRow s k (some { row with state := x })) := by
  rw [writeRowState, modRow_committed h hc]

section Phases

variable (hq : vget s.sequencers st = some q) (ha : q.newArm = arm)

include hq ha

theorem sequencerInterval_accelerating (hp : q.phase = .accelerating) :
    sequencerInterval st arm w n s = accelInterval st q w s := by
  simp [sequencerInterval, hq, ha, hp]

theorem sequencerInterval_matched (hp : q.phase = .matched) :
    sequencerInterval st arm w n s = matchedInterval st q w n s := by
  simp [sequencerInterval, hq, ha, hp]

theorem sequencerInterval_late (hp : q.phase = .pasting ∨ q.phase = .closing) :
    sequencerInterval st arm w n s = s := by
  rcases hp with hp | hp <;> simp [sequencerInterval, hq, ha, hp]

end Phases

/-- The second interval in tolerance in a row makes the sequencer and its row MATCHED (R110). -/
theorem accelInterval_matches (hacc : q.accepted = true) (hin : inTolerance q w = true) (hrun : q.inRun = true)
    (hr : vget s.rows q.row = some row) (hs : row.state = .accelerating) :
    accelInterval st q w s = raiseRow q.row st { s with
      sequencers := vset s.sequencers st (some { q with
        phase := .matched, inRun := false, outRun := false, missRun := false })
      rows := vset s.rows q.row (some { row with state := .matched }) } := by
  simp only [accelInterval, hacc, hin, hrun, Bool.not_true, Bool.false_eq_true, if_true, if_false]
  exact writeRowState_committed (row := row) hr (by rw [hs]; rfl)

/-- A match loss below the retry limit queues ACCEL again (R114), and closes past the match deadline. -/
def retried (s : State) (st : StandId) (q : Sequencer) (row : OrderRow) (c : Commitment) : State :=
  raiseRow q.row st { s with
    bus := queuedBus s.bus st ⟨.accel, some q.newArm, some q.circumference, none⟩
    sequencers := vset s.sequencers st (some { q with
      phase := .accelerating, accepted := false, inRun := false, outRun := false, missRun := false })
    rows := vset s.rows q.row (some { row with
      state := .accelerating, commitment := some { c with retries := c.retries + 1 } }) }

theorem retried_onlyIn : OnlyIn [.rows, .sequencers, .bus, .port] s (retried s st q row c) := by
  intro b hb
  rw [retried, raiseRow_eq]
  cases b
  case rows | sequencers | bus | port => simp at hb
  all_goals rfl

theorem retried_row : vget (retried s st q row c).rows q.row = some { row with
    state := .accelerating, commitment := some { c with retries := c.retries + 1 } } := by
  rw [retried, raiseRow_rows, vget_vset_self]

theorem retryMatch_eq (hr : vget s.rows q.row = some row) (hs : row.state = .matched)
    (hc : row.commitment = some c) : retryMatch st q s =
      if atOrAfter (standPos s st) c.deadline then sequencerClose q .accelTimeout (retried s st q row c)
      else retried s st q row c := by
  have state : writeRowState q.row st .accelerating (setSequencer (queueRequest st
      (accelRequest q.newArm q.circumference) (modRow q.row (fun row => { row with
        commitment := row.commitment.map fun c => { c with retries := c.retries + 1 } }) s)) st (some { q with
          phase := .accelerating, accepted := false, inRun := false, outRun := false, missRun := false })) =
      retried s st q row c := by
    rw [modRow_committed hr (by rw [hs]; rfl), hc]
    refine (writeRowState_committed (vget_vset_self ..) (by rw [hs]; rfl)).trans ?_
    simp only [setSequencer, queueRequest, setBus, setRow, vset_vset]
    rfl
  have reached : deadlineReached (retried s st q row c) st q = atOrAfter (standPos s st) c.deadline := by
    have pos : standPos (retried s st q row c) st = standPos s st :=
      standPos_of_keeps (raiseRow_keeps (.refl _)) st
    rw [deadlineReached, pos]
    simp [retried]
  simp only [retryMatch, state, reached]

theorem matchLoss_below (hr : vget s.rows q.row = some row) (hs : row.state = .matched)
    (hc : row.commitment = some c) (hl : c.retries < c.frozen.retryLimit) : matchLoss st q s =
      if atOrAfter (standPos s st) c.deadline then sequencerClose q .accelTimeout (retried s st q row c)
      else retried s st q row c := by
  simp only [matchLoss, hr, Option.bind_some, hc, if_pos hl, retryMatch_eq hr hs hc]

theorem matchLoss_limit (hr : vget s.rows q.row = some row) (hc : row.commitment = some c)
    (hl : c.frozen.retryLimit ≤ c.retries) : matchLoss st q s = sequencerClose q .matchLost s := by
  simp [matchLoss, hr, hc, Nat.not_lt.2 hl]

/-- The second interval out of tolerance in a row is a match loss (R113). -/
theorem matchedInterval_loss (hin : inTolerance q w = false) (ho : q.outRun = true) :
    matchedInterval st q w n s = matchLoss st q s := by
  simp [matchedInterval, hin, ho]

/-- Any other interval in MATCHED is a tape-search revolution (R115). -/
theorem matchedInterval_search (h : inTolerance q w = true ∨ q.outRun = false) : matchedInterval st q w n s =
    tapeRevolution st { q with outRun := !inTolerance q w } n s := by
  cases hin : inTolerance q w with
  | true => simp [matchedInterval, hin]
  | false => simp [matchedInterval, hin, h.resolve_left (by simp [hin])]

end Interval

/-! ## A close that the sequencer asks for (R32, R81) -/

section Closes

variable {s b : State} {k : RowId} {row : OrderRow} {st : StandId} {why : OrderReason}

/-- The abort return of a COMMITTED new reel: MOUNTED after TAPE_NOT_FOUND, else PREPARED (R32). -/
def returnedRecord (why : OrderReason) (r : ReelRecord) : ReelRecord :=
  { r with state := if why = .tapeNotFound then .mounted else .prepared, verify := .untested }

theorem abortReturn_returns {i : SlotId} {r : ReelRecord} (hi : findReel s row.newReel = some i)
    (hr : vget s.reels i = some r) (ht : r.tag = some row.tag) (hs : r.state = .committed) :
    vget (abortReturn row (some why) s).reels i = some (returnedRecord why r) := by
  simp [abortReturn, orderReel_eq hi hr ht, hr, hs, returnedRecord]

variable {i : SlotId} {new : ReelRecord} {o : OrderState} {d : Option DoneResults} {f : Bool}

theorem releaseOrderOf_returns (ha : abortable s row = true) (hi : findReel s row.newReel = some i)
    (hr : vget s.reels i = some new) (ht : new.tag = some row.tag) (hs : new.state = .committed) :
    vget (releaseOrderOf k row o (some why) d f s).reels i = some { returnedRecord why new with tag := none } := by
  have untag : ∀ u : State, SameNumbers s u → vget u.reels i = some (returnedRecord why new) →
      vget (untagOrder row u).reels i = some { returnedRecord why new with tag := none } := fun u hn hu =>
    untagOrder_newReel ((hn.findReel_eq _).trans hi) hu ht
  have coasted : SameNumbers s (coastUnlessLost row f (setRow s k (some (closedRow row o (some why) d)))) :=
    .of_reels (by simp)
  have returned := abortReturn_returns (why := why) ((coasted.findReel_eq _).trans hi) (by simpa using hr) ht hs
  have numbers := coasted.trans (abortReturn_sameNumbers row (some why) _)
  unfold releaseOrderOf
  dsimp only
  rw [if_pos ha]
  split
  · exact untag _ numbers returned
  · exact untag _ (numbers.trans (.of_reels rfl)) returned

theorem closeRow_returns (hr : vget s.rows k = some row) (ho : row.state.isOpen = true)
    (ha : abortable s row = true) (hn : reelOf s row.newReel = some new) (ht : new.tag = some row.tag)
    (hs : new.state = .committed) :
    reelOf (closeRow k o (some why) d f s).1 row.newReel = some { returnedRecord why new with tag := none } := by
  obtain ⟨i, hi, hri⟩ := reelOf_some hn
  have reels := closeRow_reels o (some why) d f hr ho
  have slot : findReel (closeRow k o (some why) d f s).1 row.newReel = some i :=
    ((SameNumbers.of_reels reels).findReel_eq _).trans ((releaseOrderOf_sameNumbers.findReel_eq _).trans hi)
  exact reelOf_eq slot (by rw [reels]; exact releaseOrderOf_returns ha hi hri ht hs)

/-- A close that the sequencer asks for while it accelerates or is matched, on a line with no order to place. -/
theorem closeOrder_aborts (hr : vget s.rows k = some row) (hst : row.stand = st)
    (hc : row.state = .accelerating ∨ row.state = .matched)
    (hz : ∀ e ∈ vget s.schedules (lineOf s st), e.frozen = true) :
    vget (closeOrder k .failed why false s).sequencers st = none ∧
      ∀ new, reelOf s row.newReel = some new → new.tag = some row.tag → new.state = .committed →
        reelOf (closeOrder k .failed why false s) row.newReel =
          some { returnedRecord why new with tag := none } := by
  subst hst
  have ho : row.state.isOpen = true := by rcases hc with h | h <;> rw [h] <;> rfl
  have hw : row.state.waiting = false := by rcases hc with h | h <;> rw [h] <;> rfl
  have ha : abortable s row = true := by rcases hc with h | h <;> simp [abortable, h]
  rw [closeOrder_alone hr ho fun e he _ => hz e he]
  refine ⟨?_, fun new => closeRow_returns hr ho ha⟩
  rw [closeRow_sequencers _ _ _ _ hr ho, hw]
  simp

/-- The mark that makes the sequencer close its order: what the close leaves, with the mark at the run. -/
theorem mark_closes {arm : Arm} {n : Option Nat} (hb : OnlyIn [.arms, .rows, .sequencers, .bus, .port] s b)
    (hr : vget b.rows k = some row) (hst : row.stand = st)
    (hc : row.state = .accelerating ∨ row.state = .matched) :
    let t := arbitrate (verifyMark st arm n (closeOrder k .failed why false b))
    vget t.rows k = some (closedRow row .failed (some why) none) ∧
      ((∀ e ∈ vget s.schedules (lineOf s st), e.frozen = true) → vget t.sequencers st = none ∧
        ∀ new, reelOf s row.newReel = some new → new.tag = some row.tag → new.state = .committed →
          reelOf t row.newReel = some { returnedRecord why new with tag := none }) ∧
      OnlyIn [.arms, .reels, .verifies, .rows, .schedules, .sequencers, .bus, .port] s t := by
  generalize hu : closeOrder k .failed why false b = u
  have ho : row.state.isOpen = true := by rcases hc with h | h <;> rw [h] <;> rfl
  have last : OnlyIn [.verifies, .bus] u (arbitrate (verifyMark st arm n u)) :=
    verifyMark_onlyIn.and_then (arbitrate_onlyIn _)
  have close : OnlyIn [.reels, .verifies, .rows, .schedules, .sequencers, .bus, .port] b u :=
    hu ▸ (closeOrder_keeps (.refl b)).onlyIn_lines (by simp) (by simp) (by simp) (by simp)
  refine ⟨?_, fun hz => ?_, ((hb.and_then close).and_then last).mono (by simp)⟩
  · rw [last .rows (by simp), ← hu]
    exact closeOrder_rows hr ho rfl
  · have line : lineOf b st = lineOf s st := lineOf_congr (hb .settings (by simp)) st
    have schedules : b.schedules = s.schedules := hb .schedules (by simp)
    have reels : b.reels = s.reels := hb .reels (by simp)
    have kept : (arbitrate (verifyMark st arm n u)).reels = u.reels := last .reels (by simp)
    obtain ⟨idle, returned⟩ := closeOrder_aborts (why := why) hr hst hc (by rw [schedules, line]; exact hz)
    rw [hu] at idle returned
    refine ⟨by rw [last .sequencers (by simp)]; exact idle, fun new hn ht hs => ?_⟩
    have found : reelOf b row.newReel = some new := by
      rw [reelOf, (SameNumbers.of_reels reels).findReel_eq, reels]
      exact hn
    rw [reelOf, (SameNumbers.of_reels kept).findReel_eq, kept]
    exact returned new found ht hs

end Closes

/-- Settles O29: the interval reaches the sequencer alone, which judges it by its phase. -/
theorem matchIntervals : Obligations.MatchIntervals := by
  intro st arm s q row m w hn hq ha hr hm hw ht hv inTol mk becomes closes
  have hq' : vget (marked s st arm w).sequencers st = some q := hq
  have hr' : vget (marked s st arm w).rows q.row = some row := hr
  have turns : ∀ q', sequencerInterval st arm w (armContext s st arm).tapeCount (marked s st arm w) =
      setSequencer (marked s st arm w) st (some q') → becomes q' := fun q' h =>
    (exec_mark_quiet hm hw ht hv h rfl).trans (by rw [arbitrate_eq_self (by exact hn)]; rfl)
  have same : setSequencer (marked s st arm w) st (some q) = marked s st arm w := by
    rw [setSequencer, ← hq', vset_vget_self]
  have closed : ∀ b row' c why, sequencerInterval st arm w (armContext s st arm).tapeCount (marked s st arm w) =
      closeOrder q.row .failed why false b → OnlyIn [.arms, .rows, .sequencers, .bus, .port] s b →
      vget b.rows q.row = some row' → (row'.state = .accelerating ∨ row'.state = .matched) → row'.stand = st →
      closedRow row' .failed (some why) none = { row with
        state := .failed, past := false, place := none, commitment := some c, results := none
        reason := some why } → row'.newReel = row.newReel → row'.tag = row.tag → closes c why := by
    intro b row' c why h hb hrow hc hst hcl hnew htag
    obtain ⟨rows, alone, only⟩ := mark_closes (why := why) (n := some (armContext s st arm).tapeCount) (arm := arm)
      hb hrow hst hc
    rw [hnew, htag] at alone
    exact ⟨_, (exec_mark hm hw ht).trans (by rw [h]), rows.trans (by rw [hcl]), alone, only⟩
  refine ⟨fun hp => ?_, fun hp c hs hst hc => ?_, fun hp => ?_⟩
  · have judged : sequencerInterval st arm w (armContext s st arm).tapeCount (marked s st arm w) =
        accelInterval st q w (marked s st arm w) := sequencerInterval_accelerating hq' ha hp
    refine ⟨fun hacc hin hrun hs => ?_, fun hacc hin hrun => turns _ (judged.trans ?_),
      fun hacc hin => turns _ (judged.trans ?_), fun hacc => turns _ (judged.trans ?_)⟩
    · have matched := judged.trans (accelInterval_matches hacc ((inTolerance_iff q w).2 hin) hrun hr' hs)
      refine (exec_mark_quiet hm hw ht hv matched (by simp [marked])).trans ?_
      rw [raiseRow_eq, arbitrate_eq_self (by exact hn)]
      rfl
    · simp [accelInterval, hacc, (inTolerance_iff q w).2 hin, hrun]
    · simp [accelInterval, hacc, (inTolerance_eq_false_iff q w).2 hin]
    · rw [same]
      simp [accelInterval, hacc]
  · intro again
    have judged : sequencerInterval st arm w (armContext s st arm).tapeCount (marked s st arm w) =
        matchedInterval st q w (armContext s st arm).tapeCount (marked s st arm w) :=
      sequencerInterval_matched hq' ha hp
    have closes_row : ∀ why, closedRow row .failed (some why) none = { row with
        state := .failed, past := false, place := none, commitment := some c, results := none
        reason := some why } := fun why => by rw [closedRow, ← hc]
    refine ⟨fun hin hout => ?_, fun hsearch => ?_⟩
    · have lost := judged.trans (matchedInterval_loss ((inTolerance_eq_false_iff q w).2 hin) hout)
      refine ⟨fun hl hd => ?_, fun hl hd => ?_, fun hl => ?_⟩
      · have ahead : atOrAfter (standPos (marked s st arm w) st) c.deadline = false :=
          (atOrAfter_eq_false_iff ..).2 hd
        have retry := lost.trans (matchLoss_below hr' hs hc hl)
        rw [ahead, if_neg (by simp)] at retry
        refine (exec_mark_quiet hm hw ht hv retry (by simp [retried, marked])).trans ?_
        rw [retried, raiseRow_eq, ha]
        rfl
      · have passed : atOrAfter (standPos (marked s st arm w) st) c.deadline = true := (atOrAfter_iff ..).2 hd
        have retry := lost.trans (matchLoss_below hr' hs hc hl)
        rw [passed, if_pos rfl] at retry
        exact closed _ _ again .accelTimeout retry ((marked_onlyIn.and_then retried_onlyIn).mono (by simp))
          retried_row (.inl rfl) hst rfl rfl rfl
      · exact closed _ row c .matchLost (lost.trans (matchLoss_limit hr' hc hl)) (marked_onlyIn.mono (by simp)) hr'
          (.inr hs) hst (closes_row _) rfl rfl
    · have search := judged.trans (matchedInterval_search (hsearch.imp_left (inTolerance_iff q w).2))
      have outside : decide (¬ inTol) = !inTolerance q w := by
        rw [decide_not]
        congr 1
        rw [Bool.eq_iff_iff, decide_eq_true_iff, inTolerance_iff]
      refine ⟨fun hz hmiss => ?_, fun hz hmiss => turns _ (search.trans ?_), fun hz => turns _ (search.trans ?_)⟩
      · have missed : tapeRevolution st { q with outRun := !inTolerance q w } (armContext s st arm).tapeCount
            (marked s st arm w) = closeOrder q.row .failed .tapeNotFound false (marked s st arm w) := by
          simp [tapeRevolution, hz, hmiss, sequencerClose]
        exact closed _ row c .tapeNotFound (search.trans missed) (marked_onlyIn.mono (by simp)) hr' (.inr hs) hst
          (closes_row _) rfl rfl
      · simp [tapeRevolution, hz, hmiss, outside]
      · simp [tapeRevolution, hz, outside]
  · exact turns q ((sequencerInterval_late hq' ha hp).trans same.symm)

end Sys2Proof.Machine
end

section
/-! ORDER SPLICE: its refusals and the order that it creates (R68 to R71). -/

namespace Sys2Proof.Machine

open Sys2Proof

/-! ## The tests of R70 -/

section Tests

variable {s : State} {p : List Byte} {st : StandId} {old new : ReelRecord} {arm : Arm} {tag n : Nat}

theorem runningReel_some (h : runningReel s st = some old) : old.stand = st ∧ old.state = .running := by
  obtain ⟨i, hi, hr⟩ := Option.bind_eq_some_iff.1 h
  have := List.find?_some hi
  simpa [hr] using this

/-- The RUNNING record of a stand passes test 5: it is at RUN and has a remaining length. -/
def SplicesFrom (s : State) (st : StandId) (old : ReelRecord) : Prop :=
  ∃ x, old.arm = some x ∧ armPosition s st x = some .run ∧ (reportedRemaining s old).isSome = true

theorem runningOrderable_iff (h : old.stand = st) : runningOrderable s old = true ↔ SplicesFrom s st old := by
  subst h
  unfold runningOrderable SplicesFrom
  cases old.arm <;> simp

/-- A record passes test 7 as the new reel of a stand: READY, of the stand, at SPLICE. -/
theorem newReelArm_some (hs : new.state = .ready) (hst : new.stand = st) (ha : new.arm = some arm)
    (hp : armPosition s st arm = some .splice) : newReelArm s st new = some arm := by
  simp [newReelArm, ha, hs, hst, hp, Option.filter]

theorem newReelArm_none (h : ¬ (new.state = .ready ∧ new.stand = st ∧
    ∃ x, new.arm = some x ∧ armPosition s st x = some .splice)) : newReelArm s st new = none := by
  refine Option.eq_none_iff_forall_ne_some.2 fun x hx => h ?_
  obtain ⟨ha, ht⟩ := Option.filter_eq_some_iff.1 hx
  simp only [Bool.and_eq_true, beq_iff_eq] at ht
  exact ⟨ht.1.1, ht.1.2, x, ha, ht.2⟩

theorem orderSpliceBody_badValue (h : 63 < item p 0 1 ∨ item p 1 1 = 0 ∨ 8 < item p 1 1 ∨ item p 2 4 = 0) :
    orderSpliceBody p s = (s, ⟨.badValue, []⟩) := by
  unfold orderSpliceBody
  dsimp only
  split
  · rfl
  · next st hst =>
    have stand : ¬ (item p 1 1 = 0 ∨ 8 < item p 1 1) := fun h => by rw [standOf_eq_none h] at hst; cases hst
    rw [if_pos (by simp; omega)]
    rfl

theorem orderSpliceBody_stand (hst : item p 1 1 = st.val + 1) (ht : item p 0 1 ≤ 63) (hn : item p 2 4 ≠ 0) :
    orderSpliceBody p s = if (rowOfTag s (item p 0 1)).isSome then (s, ⟨.tagInUse, []⟩)
      else if !isOnline s st then (s, ⟨.standNotOnline, []⟩)
      else if (openRow s st).isSome || indexInProgress s st then (s, ⟨.standBusy, []⟩)
      else placeOrder (item p 0 1) st (item p 2 4) s := by
  unfold orderSpliceBody
  rw [hst, standOf_val]
  dsimp only
  rw [if_neg (by simp [hn]; omega)]
  rfl

theorem placeOrder_wrongState (h : ∀ old, runningReel s st = some old → ¬ SplicesFrom s st old) :
    placeOrder tag st n s = (s, ⟨.wrongState, []⟩) := by
  unfold placeOrder
  split
  · rfl
  · next old ho =>
    have failed : runningOrderable s old = false := by
      rw [← Bool.not_eq_true, runningOrderable_iff (runningReel_some ho).1]
      exact h old ho
    rw [failed]
    rfl

section Runs

variable (ho : runningReel s st = some old) (hr : SplicesFrom s st old)

include ho hr

theorem placeOrder_noSuchReel (hn : reelOf s n = none) : placeOrder tag st n s = (s, ⟨.noSuchReel, []⟩) := by
  have passed := (runningOrderable_iff (runningReel_some ho).1).2 hr
  simp [placeOrder, ho, passed, hn, reply]

theorem placeOrder_armNotReady (hn : reelOf s n = some new) (ha : newReelArm s st new = none) :
    placeOrder tag st n s = (s, ⟨.armNotReady, []⟩) := by
  have passed := (runningOrderable_iff (runningReel_some ho).1).2 hr
  simp [placeOrder, ho, passed, hn, ha, reply]

theorem placeOrder_tableFull (hn : reelOf s n = some new) (ha : newReelArm s st new = some arm)
    (he : emptyRow s = none) : placeOrder tag st n s = (s, ⟨.orderTableFull, []⟩) := by
  have passed := (runningOrderable_iff (runningReel_some ho).1).2 hr
  simp [placeOrder, ho, passed, hn, ha, he, reply]

theorem placeOrder_creates {i : RowId} (hn : reelOf s n = some new) (ha : newReelArm s st new = some arm)
    (he : emptyRow s = some i) : placeOrder tag st n s =
      (createOrder i (newRow s tag st old.reel n arm) s, ⟨.ok, [BitVec.ofNat 8 i.val]⟩) := by
  have passed := (runningOrderable_iff (runningReel_some ho).1).2 hr
  simp [placeOrder, ho, passed, hn, ha, he, ok, beBytes]

end Runs

/-- The order that passes every test of R70. -/
theorem orderSpliceBody_creates {i : RowId} (hst : item p 1 1 = st.val + 1) (ht : item p 0 1 ≤ 63)
    (hn : item p 2 4 ≠ 0) (htag : rowOfTag s (item p 0 1) = none) (ho : (vget s.stands st).condition = .online)
    (hopen : openRow s st = none) (hidx : indexInProgress s st = false) (hrun : runningReel s st = some old)
    (hold : SplicesFrom s st old) (hnew : reelOf s (item p 2 4) = some new) (ha : newReelArm s st new = some arm)
    (he : emptyRow s = some i) : orderSpliceBody p s =
      (createOrder i (newRow s (item p 0 1) st old.reel (item p 2 4) arm) s, ⟨.ok, [BitVec.ofNat 8 i.val]⟩) := by
  rw [orderSpliceBody_stand hst ht hn, if_neg (by simp [htag]), if_neg (by simp [isOnline_iff.2 ho]),
    if_neg (by simp [hopen, hidx]), placeOrder_creates hrun hold hnew ha he]

theorem exec_orderSplice {ad : Byte} : exec (.orderSplice ad p) s =
    answerAndSend .plain ad 0x10 (withLength 6 p (orderSpliceBody p)) s := rfl

/-- A refusal leaves the table as it is (R70). -/
theorem exec_orderSplice_refused {ad : Byte} {x : Status} (h : Addressed s ad) (hp : p.length = 6)
    (hw : NothingWaits s) (hb : orderSpliceBody p (endParamRun s) = (endParamRun s, ⟨x, []⟩)) :
    exec (.orderSplice ad p) s = .next { s with port := answering s.port 0x10 x [] } := by
  rw [exec_orderSplice, answerAndSend_answers h hp hb rfl, arbitrate_eq_self (by exact hw)]
  rfl

end Tests

/-! ## An evaluation leaves go as it is -/

/-- No row's go changes. -/
structure GoKept (s t : State) : Prop where
  go : ∀ r, (vget t.rows r).map (·.go) = (vget s.rows r).map (·.go)

section Go

variable {s t u : State} {r : RowId} {x y : OrderRow} {l : LineId}

theorem GoKept.refl (s : State) : GoKept s s := ⟨fun _ => rfl⟩

theorem GoKept.trans (h : GoKept s t) (k : GoKept t u) : GoKept s u :=
  ⟨fun r => (k.go r).trans (h.go r)⟩

theorem GoKept.of_rows (h : t.rows = s.rows) : GoKept s t := ⟨fun r => by rw [h]⟩

/-- One row written with the go that it had. -/
theorem GoKept.of_row (hr : vget s.rows r = some x) (h : t.rows = vset s.rows r (some y)) (hg : y.go = x.go) :
    GoKept s t := by
  refine ⟨fun k => ?_⟩
  rw [h, vget_vset]
  split
  · next e => rw [e, hr, Option.map_some, Option.map_some, hg]
  · rfl

theorem closeRow_go (o : OrderState) (why : Option OrderReason) (d : Option DoneResults) (b : Bool) :
    GoKept s (closeRow r o why d b s).1 := by
  cases e : vget s.rows r with
  | none => rw [closeRow_none _ _ _ _ e]; exact .refl s
  | some row =>
    cases ho : row.state.isOpen with
    | false => rw [closeRow_not_open _ _ _ _ e ho]; exact .refl s
    | true => exact .of_row e (closeRow_rows _ _ _ _ e ho) rfl

theorem commitTest_go (r : RowId) (s : State) : GoKept s (commitTest r s).1 := by
  unfold commitTest
  split
  · exact .refl s
  · next row hr =>
    dsimp only
    split
    · split
      · split
        · exact closeRow_go ..
        · dsimp only
          split
          · exact .of_row hr rfl rfl
          · exact .of_row hr (raiseRow_rows ..) rfl
      · split
        · split
          · exact closeRow_go ..
          · exact .of_row hr rfl rfl
        · exact .of_row hr (commitRow_rows ..) rfl
    · exact .refl s

theorem latestReport_go (r : RowId) (s : State) : GoKept s (latestReport r s).1 := by
  unfold latestReport
  split
  · exact .refl s
  · split
    · exact closeRow_go ..
    · exact closeRow_go ..
    · exact commitTest_go r s
    · exact .refl s

theorem placedRow_go (pos : Pos) (e : Entry) (x : OrderRow) : (placedRow pos e x).go = x.go := by
  unfold placedRow
  dsimp only
  split <;> rfl

theorem handOff_go (l : LineId) (acc : State × Nat) (e : Entry) : GoKept acc.1 (handOff l acc e).1 := by
  unfold handOff
  dsimp only
  split
  · exact .refl _
  · next row hr =>
    split
    · exact .refl _
    · have placed : ∀ v : State, v.rows = vset acc.1.rows e.row (some (placedRow (position acc.1 l) e row)) →
          GoKept acc.1 v := fun v h => .of_row hr h (placedRow_go ..)
      have base : GoKept acc.1 (if (row.state == .held &&
          (placedRow (position acc.1 l) e row).state == .armed) = true
          then raiseRow e.row row.stand (setRow acc.1 e.row (some (placedRow (position acc.1 l) e row)))
          else setRow acc.1 e.row (some (placedRow (position acc.1 l) e row))) := by
        split
        · exact placed _ (raiseRow_rows ..)
        · exact placed _ rfl
      split
      · exact base.trans (commitTest_go ..)
      · split
        · exact base.trans (latestReport_go ..)
        · exact base

theorem evalOnce_go (l : LineId) (s : State) : GoKept s (evalOnce l s).1 := by
  unfold evalOnce
  dsimp only
  refine foldl_inv (P := fun acc : State × Nat => GoKept s acc.1) _ _ (fun acc e _ h => h.trans (handOff_go ..)) ?_
  dsimp only
  split
  · exact .of_rows (raiseLine_rows ..)
  · exact .of_rows rfl

theorem evaluate_go (l : LineId) (s : State) : GoKept s (evaluate l s) := by
  have rounds : ∀ n d u, GoKept s u → GoKept s (evalRounds n d l u) := by
    intro n
    induction n with
    | zero => exact fun _ _ h => h
    | succ n ih =>
      intro d u h
      cases d with
      | zero => exact h
      | succ d => exact ih _ _ (h.trans (evalOnce_go l u))
  exact rounds _ _ s (.refl s)

theorem joinSchedule_go (r : RowId) (st : StandId) (s : State) : GoKept s (joinSchedule r st s) := by
  unfold joinSchedule
  dsimp only
  split
  · refine GoKept.trans ?_ (evaluate_go ..)
    exact .of_rows rfl
  · exact evaluate_go ..

theorem createOrder_go (r : RowId) (row : OrderRow) (s : State) :
    GoKept (setRow s r (some row)) (createOrder r row s) := by
  refine GoKept.trans (.of_rows ?_) (joinSchedule_go ..)
  simp [tagReel]

end Go

/-! ## The evaluation of a new order that is alone on its line -/

section Single

variable {s : State} {l : LineId} {i : RowId} {st : StandId} {row : OrderRow} {pp pl : Pos} {a : Nat}

/-- The entry of an order that is alone on its line: it stands at its preferred position (R96, R98). -/
def loneEntry (i : RowId) (st : StandId) (pp pl : Pos) (a : Nat) : Entry :=
  ⟨i, st, false, ⟨pp, pl, pp⟩, false, a⟩

/-- The row of a new order once its evaluation is written into it (R73, R90). -/
def loneRow (row : OrderRow) (pp pl : Pos) (a : Nat) : OrderRow :=
  { row with place := some ⟨pp, pl, pp⟩, distance := some a }

/-- With no other entry on the line there is no blocker: the entry stays at its preferred position. -/
theorem placedEntries_lone (hs : vget s.schedules l = [loneEntry i st pp pl 0])
    (hp : splicePositions s st = some (pp, pl)) (hl : atOrAfter pl pp = true) (hr : vget s.rows i = some row)
    (ha : commitDistance (vget s.lines l).speed (standParam s st 3) (newReelOutside s row) = a) :
    placedEntries l s = [loneEntry i st pp pl a] := by
  have fresh : refreshEntry s (loneEntry i st pp pl 0) = loneEntry i st pp pl 0 := by
    simp [refreshEntry, loneEntry, hp]
  have placed : ∀ g, placeEntry g [] (loneEntry i st pp pl 0) = loneEntry i st pp pl 0 := by
    intro g
    simp [placeEntry, firstFree, loneEntry, hl]
  have distant : withDistance s (vget s.lines l).speed (loneEntry i st pp pl 0) = loneEntry i st pp pl a := by
    simp [withDistance, loneEntry, hr, ha]
  have kinds : (loneEntry i st pp pl 0).frozen = false := rfl
  simp [placedEntries, hs, fresh, kinds, takingOrder, sortBy, insertSorted, placeAll, placed, distant]

/-- A new row whose commit points are ahead is written and no more (R2, R73). -/
theorem handOff_ahead {n : Nat} (hr : vget s.rows i = some row) (hs : row.state = .armed) (hp : row.past = false)
    (hsp : row.spacingShort = false) (hlow : row.speedLow = false)
    (hc : atOrAfter (position s l) (back pp a) = false) (hz : atOrAfter (position s l) (back pl a) = false) :
    handOff l (s, n) (loneEntry i st pp pl a) = (setRow s i (some (loneRow row pp pl a)), n) := by
  have placed : placedRow (position s l) (loneEntry i st pp pl a) row = loneRow row pp pl a := by
    simp [placedRow, loneEntry, loneRow, hc, hs, hp, hsp, hlow]
  simp only [handOff, loneEntry] at placed ⊢
  simp [hr, placed, hc, hz, hs, OrderState.waiting]

/-- The evaluation of a line whose one entry is that of a new order: it is placed and written into the row. -/
theorem evaluate_lone (hs : vget s.schedules l = [loneEntry i st pp pl 0])
    (hp : splicePositions s st = some (pp, pl)) (hl : atOrAfter pl pp = true) (hr : vget s.rows i = some row)
    (ha : commitDistance (vget s.lines l).speed (standParam s st 3) (newReelOutside s row) = a)
    (harmed : row.state = .armed) (hpast : row.past = false) (hsp : row.spacingShort = false)
    (hlow : row.speedLow = false) (hc : atOrAfter (position s l) (back pp a) = false)
    (hz : atOrAfter (position s l) (back pl a) = false) : evaluate l s =
      setRow (setSchedule s l [loneEntry i st pp pl a]) i (some (loneRow row pp pl a)) := by
  have placed := placedEntries_lone hs hp hl hr ha
  have once : evalOnce l s = (setRow (setSchedule s l [loneEntry i st pp pl a]) i (some (loneRow row pp pl a)), 0) := by
    have kept : ([loneEntry i st pp pl 0].filter (·.frozen)) = [] := rfl
    have short : newlyShort [loneEntry i st pp pl 0] [loneEntry i st pp pl a] = false := rfl
    unfold evalOnce
    dsimp only
    rw [placed, hs, kept, short]
    exact handOff_ahead (s := setSchedule s l [loneEntry i st pp pl a]) hr harmed hpast hsp hlow hc hz
  have count : placedCount s l = 1 := by
    rw [placedCount, hs]
    rfl
  rw [evaluate, settle, count]
  simp only [evalRounds, once]

end Single

/-! ## The order created (R71, R90) -/

section Create

variable {s : State} {st : StandId} {i : RowId} {row : OrderRow} {j k : SlotId} {old new : ReelRecord}
  {pp pl : Pos} {a : Nat}

/-- The row of a new order and the allocation start behind it (R68). -/
def rowTaken (i : RowId) (row : OrderRow) (s : State) : State := setAllocStart (setRow s i (some row)) (i + 1)

theorem tagReels_eq (hj : findReel s row.expiring = some j) (hold : vget s.reels j = some old)
    (hk : findReel s row.newReel = some k) (hnew : vget s.reels k = some new) (hne : j ≠ k) :
    tagReel row.tag row.newReel (tagReel row.tag row.expiring s) = { s with
      reels := vset (vset s.reels j (some { old with tag := some row.tag })) k
        (some { new with tag := some row.tag }) } := by
  have first : tagReel row.tag row.expiring s = setReel s j (some { old with tag := some row.tag }) :=
    modReel_some hj hold
  have slot : findReel (setReel s j (some { old with tag := some row.tag })) row.newReel = some k :=
    ((setReel_sameNumbers (y := { old with tag := some row.tag }) hold rfl).findReel_eq _).trans hk
  rw [first]
  exact modReel_some slot ((vget_vset_ne _ _ _ _ hne.symm).trans hnew)

/-- The Reel Table with both reels of an order tagged (R30). -/
def reelsTagged (row : OrderRow) (j k : SlotId) (old new : ReelRecord) (s : State) :
    Vector (Option ReelRecord) 64 :=
  vset (vset s.reels j (some { old with tag := some row.tag })) k (some { new with tag := some row.tag })

/-- The new order as it joins its line: row, allocation start, tags and flag written (R30, R68, R71). -/
def orderEntered (i : RowId) (row : OrderRow) (j k : SlotId) (old new : ReelRecord) (s : State) : State :=
  { rowTaken i row s with reels := reelsTagged row j k old new s, port := raisedRowPort s i row.stand }

theorem orderEntered_newReel {c : Nat} (hold : vget s.reels j = some old) (hk : findReel s row.newReel = some k)
    (hnew : vget s.reels k = some new) (hne : j ≠ k) (hc : new.outside = some c) {u : State}
    (hu : u.reels = reelsTagged row j k old new s) : newReelOutside u row = c := by
  have numbers : SameNumbers s (setReel (setReel s j (some { old with tag := some row.tag })) k
      (some { new with tag := some row.tag })) :=
    (setReel_sameNumbers (y := { old with tag := some row.tag }) hold rfl).trans
      (setReel_sameNumbers (y := { new with tag := some row.tag })
        ((vget_vset_ne _ _ _ _ hne.symm).trans hnew) rfl)
  have slot : findReel u row.newReel = some k :=
    ((SameNumbers.of_reels hu).findReel_eq _).trans ((numbers.findReel_eq _).trans hk)
  exact newReelOutside_eq (new := { new with tag := some row.tag })
    (reelOf_eq slot (by rw [hu]; exact vget_vset_self ..)) hc

/-- An order created on a line with no other entry, before both of its commit points. -/
theorem createOrder_lone {c : Nat} (hst : row.stand = st) (hj : findReel s row.expiring = some j)
    (hold : vget s.reels j = some old) (hk : findReel s row.newReel = some k) (hnew : vget s.reels k = some new)
    (hne : j ≠ k) (hl : vget s.schedules (lineOf s st) = []) (hp : splicePositions s st = some (pp, pl))
    (hpl : atOrAfter pl pp = true) (hout : new.outside = some c)
    (ha : commitDistance (vget s.lines (lineOf s st)).speed (standParam s st 3) c = a)
    (harmed : row.state = .armed) (hpast : row.past = false) (hsp : row.spacingShort = false)
    (hlow : row.speedLow = false) (hc : atOrAfter (standPos s st) (back pp a) = false)
    (hz : atOrAfter (standPos s st) (back pl a) = false) : createOrder i row s = { s with
      reels := reelsTagged row j k old new s
      rows := vset s.rows i (some (loneRow row pp pl a))
      allocStart := i + 1
      schedules := vset s.schedules (lineOf s st) [loneEntry i st pp pl a]
      port := raisedRowPort s i st } := by
  subst hst
  have tagged : raiseRow i row.stand (tagReel row.tag row.newReel (tagReel row.tag row.expiring (rowTaken i row s))) =
      orderEntered i row j k old new s := by
    rw [tagReels_eq (s := rowTaken i row s) hj hold hk hnew hne, raiseRow_eq]
    rfl
  have entry : newEntry (orderEntered i row j k old new s) i row.stand = some (loneEntry i row.stand pp pl 0) := by
    have found : splicePositions (orderEntered i row j k old new s) row.stand = some (pp, pl) := hp
    rw [newEntry, found]
    rfl
  have line : lineOf (orderEntered i row j k old new s) row.stand = lineOf s row.stand := rfl
  have schedule : vget (orderEntered i row j k old new s).schedules (lineOf s row.stand) = [] := hl
  change joinSchedule i row.stand (raiseRow i row.stand (tagReel row.tag row.newReel (tagReel row.tag row.expiring
    (rowTaken i row s)))) = _
  have joined : joinSchedule i row.stand (orderEntered i row j k old new s) =
      evaluate (lineOf s row.stand) (setSchedule (orderEntered i row j k old new s) (lineOf s row.stand)
        [loneEntry i row.stand pp pl 0]) := by
    simp only [joinSchedule, entry, line, schedule, List.nil_append]
  rw [tagged, joined]
  generalize hw : setSchedule (orderEntered i row j k old new s) (lineOf s row.stand)
    [loneEntry i row.stand pp pl 0] = w
  have outside : newReelOutside w row = c := orderEntered_newReel hold hk hnew hne hout (by rw [← hw]; rfl)
  have evaluated : evaluate (lineOf s row.stand) w = setRow (setSchedule w (lineOf s row.stand)
      [loneEntry i row.stand pp pl a]) i (some (loneRow row pp pl a)) := by
    refine evaluate_lone ?_ ?_ hpl ?_ ?_ harmed hpast hsp hlow ?_ ?_
    · rw [← hw]; exact vget_vset_self ..
    · rw [← hw]; exact hp
    · rw [← hw]; exact vget_vset_self ..
    · rw [outside, ← hw]; exact ha
    · rw [← hw]; exact hc
    · rw [← hw]; exact hz
  refine evaluated.trans ?_
  subst hw
  simp only [setSchedule, setRow, orderEntered, rowTaken, setAllocStart, vset_vset]

end Create

/-- What ORDER SPLICE makes of the row that it fills, on any line (R68, R71). -/
theorem createOrder_created {i : RowId} {row : OrderRow} {s t : State} (h : t = createOrder i row s) :
    ∃ x, vget t.rows i = some x ∧ x.tag = row.tag ∧ x.stand = row.stand ∧ x.expiring = row.expiring ∧
      x.newReel = row.newReel ∧ x.newArm = row.newArm ∧ x.go = row.go := by
  subst h
  have kept := (createOrder_keeps i row s).rows i
  have go := (createOrder_go i row s).go i
  rw [setAllocStart_rows, setRow_rows, vget_vset_self] at kept
  rw [setRow_rows, vget_vset_self] at go
  cases e : vget (createOrder i row s).rows i with
  | none => rw [e] at kept; exact kept.elim
  | some x =>
    rw [e] at kept go
    obtain ⟨ht, hs, hx, hn, ha, -⟩ := kept
    exact ⟨x, rfl, ht, hs, hx, hn, ha, Option.some.inj go⟩

theorem createOrder_onlyIn (i : RowId) (row : OrderRow) (s : State) :
    OnlyIn [.reels, .verifies, .rows, .allocStart, .schedules, .sequencers, .bus, .port] s
      (createOrder i row s) := by
  have taken : OnlyIn [.rows, .allocStart] s (rowTaken i row s) := by
    intro b hb
    cases b
    case rows | allocStart => simp at hb
    all_goals rfl
  have keeps := (createOrder_keeps i row s).onlyIn_lines (by simp [createOrder, tagReel])
    (by simp [createOrder, tagReel]) (by simp [createOrder, tagReel]) (by simp [createOrder, tagReel])
  exact (taken.and_then keeps).mono (by simp)

theorem setPort_onlyIn {s : State} {x : Port} : OnlyIn [.port] s { s with port := x } := by
  intro b hb
  cases b
  case port => simp at hb
  all_goals rfl

/-- An answer ends a parameter run, whether the frame has ended it before or not. -/
theorem answering_endParamRun (s : State) (i : RowId) (st : StandId) (code : Byte) (x : Status) (items : List Byte) :
    answering (raisedRowPort (endParamRun s) i st) code x items = answering (raisedRowPort s i st) code x items := by
  have enabled : standParam (endParamRun s) st 13 = standParam s st 13 := rfl
  unfold raisedRowPort
  rw [enabled]
  split <;> rfl

/-- Settles O54: the refusals follow the chain of R70, and an order that passes is created, on a line of its own
exactly as its entry is placed. -/
theorem orderSplice : Obligations.OrderSplice := by
  intro ad p s had hp tag n refused rowFound
  refine ⟨fun hw => ⟨fun h => exec_orderSplice_refused had hp hw (orderSpliceBody_badValue h), ?_⟩, ?_⟩
  · intro st ht hst hn runs fits
    have body : orderSpliceBody p (endParamRun s) = if (rowOfTag s tag).isSome then (endParamRun s, ⟨.tagInUse, []⟩)
        else if !isOnline s st then (endParamRun s, ⟨.standNotOnline, []⟩)
        else if (openRow s st).isSome || indexInProgress s st then (endParamRun s, ⟨.standBusy, []⟩)
        else placeOrder tag st n (endParamRun s) := orderSpliceBody_stand hst ht hn
    have answers : ∀ x, orderSpliceBody p (endParamRun s) = (endParamRun s, ⟨x, []⟩) → refused x := fun _ =>
      exec_orderSplice_refused had hp hw
    split
    · next htag => exact answers _ (body.trans (if_pos (Option.isSome_iff_ne_none.2 htag)))
    next htag =>
    rw [if_neg (by simpa using htag)] at body
    split
    · next ho => exact answers _ (body.trans (if_pos (by simpa [isOnline] using ho)))
    next ho =>
    rw [if_neg (by simpa [isOnline] using ho)] at body
    split
    · next hb =>
      exact answers _ (body.trans (if_pos (by simpa [Option.isSome_iff_ne_none] using hb)))
    next hb =>
    rw [if_neg (by simpa [Option.isSome_iff_ne_none] using hb)] at body
    refine ⟨fun hr => answers _ (body.trans (placeOrder_wrongState fun old ho hs => hr ⟨old, ?_⟩)),
      fun hr => ?_⟩
    · obtain ⟨x, hx⟩ := hs
      exact ⟨x, ho, hx⟩
    · obtain ⟨old, x, ho, hx⟩ := hr
      have hr : SplicesFrom s st old := ⟨x, hx⟩
      refine ⟨fun hnew => answers _ (body.trans (placeOrder_noSuchReel ho hr hnew)), fun new hnew =>
        ⟨fun hf => answers _ (body.trans (placeOrder_armNotReady ho hr hnew (newReelArm_none hf))),
          fun ⟨hready, hst', y, hy, hpos⟩ hfull => ?_⟩⟩
      have fits := newReelArm_some hready hst' hy hpos
      exact answers _ (body.trans (placeOrder_tableFull ho hr hnew fits hfull))
  · intro st old new arm oldArm i ht hst hn htag ho hopen hidx hrun hoa hop hos hrem hnew hready hns hna hnp hi row
    have body : orderSpliceBody p (endParamRun s) =
        (createOrder i row (endParamRun s), ⟨.ok, [BitVec.ofNat 8 i.val]⟩) :=
      orderSpliceBody_creates (s := endParamRun s) hst ht hn htag ho hopen hidx hrun ⟨oldArm, hoa, hop, hrem⟩ hnew
        (newReelArm_some hready hns hna hnp) hi
    have keeps := createOrder_keeps i row (endParamRun s)
    have step := exec_orderSplice.trans (answerAndSend_answers had hp body keeps.run)
    refine ⟨?_, ?_⟩
    · obtain ⟨x, hx, htag', hst', hex, hnew', harm, hgo⟩ :=
        createOrder_created (i := i) (row := row) (s := endParamRun s) rfl
      refine ⟨_, x, step, ?_, htag', hst', hex, hnew', harm, hgo, ?_, ?_, ?_, ?_⟩
      · rw [arbitrate_rows]
        exact hx
      · exact (arbitrate_onlyIn _ .allocStart (by simp)).trans keeps.allocStart
      · rw [arbitrate_port]
        rfl
      · rw [arbitrate_port]
        rfl
      · exact (((((endParamRun_onlyIn s).and_then (createOrder_onlyIn i row _)).and_then setPort_onlyIn).and_then
          (arbitrate_onlyIn _))).mono (by simp)
    · intro j k pp pl c hl hj hold hk hne hsp hout hpl a hc hz
      have slot : vget s.reels k = some new := by rw [← hnew, reelOf, hk, Option.bind_some]
      have created := createOrder_lone (i := i) (row := row) (s := endParamRun s) (st := st) rfl hj hold hk slot hne hl
        hsp ((atOrAfter_iff ..).2 hpl) hout rfl rfl rfl rfl rfl ((atOrAfter_eq_false_iff ..).2 hc)
        ((atOrAfter_eq_false_iff ..).2 hz)
      rw [step, created, answering_endParamRun]
      rfl

end Sys2Proof.Machine
end

section
/-! A closed interval at the tracker of its arm (R49 to R58, R63, R64). -/

namespace Sys2Proof.Machine

open Sys2Proof

/-! ## The tests of a sample -/

section Tests

variable {x : Tracker} {core c : Nat}

theorem firstBound_iff : firstBound core c = true ↔ core < c ∧ c ≤ 42000 := by simp [firstBound]

theorem secondBound_iff : secondBound x c = true ↔
    ∀ p, x.cPrev = some p → c ≤ p + 16 ∧ (x.relaxed = true ∨ p ≤ c + 64) := by
  unfold secondBound
  cases x.cPrev <;> simp

theorem plausible_iff : plausible x core c = true ↔ (core < c ∧ c ≤ 42000) ∧
    ∀ p, x.cPrev = some p → c ≤ p + 16 ∧ (x.relaxed = true ∨ p ≤ c + 64) := by
  rw [plausible, Bool.and_eq_true, firstBound_iff, secondBound_iff]

theorem gap_le_iff {k n : Nat} : gap c k ≤ n ↔ c ≤ k + n ∧ k ≤ c + n := by
  unfold gap; omega

theorem pushSample_eq (w : List Nat) (c : Nat) :
    pushSample w c = (if w.length < 32 then w else w.tail) ++ [c] := by
  unfold pushSample; split <;> rfl

/-- The decrement in use for a window that ends with the sample (R54, R55). -/
theorem decrementOf_append (nominal : Nat) (w : List Nat) (c : Nat) : decrementOf nominal (w ++ [c]) =
    if (w ++ [c]).length < 32 then (nominal, false)
    else clampLearned nominal (16 * (((w ++ [c]).headD 0 : Int) - (c : Int)) / 31) := by
  simp [decrementOf, rawLearned]

theorem clampLearned_low {nominal : Nat} {raw : Int} (low : raw < ((max 1 (nominal / 2) : Nat) : Int)) :
    clampLearned nominal raw = (max 1 (nominal / 2), true) := if_pos low

theorem clampLearned_high {nominal : Nat} {raw : Int} (low : ¬ raw < ((max 1 (nominal / 2) : Nat) : Int))
    (high : (2 * nominal : Int) < raw) : clampLearned nominal raw = (2 * nominal, true) :=
  (if_neg low).trans (if_pos (by exact_mod_cast high))

theorem clampLearned_within {nominal : Nat} {raw : Int} (low : ¬ raw < ((max 1 (nominal / 2) : Nat) : Int))
    (high : ¬ (2 * nominal : Int) < raw) : clampLearned nominal raw = (raw.toNat, false) :=
  (if_neg low).trans (if_neg (by exact_mod_cast high))

end Tests

/-! ## What an interval leaves of the tracker, its record and the port -/

/-- A state reached from s by changes of trackers, records and the port alone, with what it holds at a stand: the
tracker, the record that the tracker follows, and the port. -/
structure TrackerLeft (s : State) (st : StandId) (x : Tracker) (r : ReelRecord) (p : Port) (t : State) : Prop where
  frame : OnlyIn [.trackers, .reels, .port] s t
  tracker : vget t.trackers st = some x
  record : reelOf t x.reel = some r
  port : t.port = p

theorem setTracker_onlyIn {s : State} {st : StandId} {x : Option Tracker} :
    OnlyIn [.trackers] s (setTracker s st x) := by
  intro b hb
  cases b
  case trackers => simp at hb
  all_goals rfl

theorem modReel_onlyIn {s : State} {n : Nat} {f : ReelRecord → ReelRecord} :
    OnlyIn [.reels] s (modReel n f s) := by
  unfold modReel
  split
  · exact setReel_onlyIn
  · exact onlyIn_refl

theorem reelOf_congr {s t : State} (h : t.reels = s.reels) (n : Nat) : reelOf t n = reelOf s n := by
  rw [reelOf, reelOf, (SameNumbers.of_reels h).findReel_eq, h]

/-- A flag raised once more makes the port that the first raise made (R183). -/
theorem raisedPort_of_raised {s t : State} {st : StandId} (hs : t.settings = s.settings)
    (hp : t.port = raisedPort s st) : raisedPort t st = raisedPort s st := by
  have enabled : standParam t st 13 = standParam s st 13 := by rw [standParam, standParam, hs]
  rw [raisedPort, hp, enabled]
  unfold raisedPort
  split
  · rw [BitVec.or_assoc, BitVec.or_self]
  · rfl

namespace TrackerLeft

variable {s u : State} {st : StandId} {x y : Tracker} {r : ReelRecord} {p : Port}

theorem refl (hx : vget s.trackers st = some x) (hr : reelOf s x.reel = some r) :
    TrackerLeft s st x r s.port s := ⟨onlyIn_refl, hx, hr, rfl⟩

theorem settings (h : TrackerLeft s st x r p u) : u.settings = s.settings := h.frame .settings (by simp)

theorem sequencers (h : TrackerLeft s st x r p u) : u.sequencers = s.sequencers := h.frame .sequencers (by simp)

theorem standPos_eq (h : TrackerLeft s st x r p u) : standPos u st = standPos s st := by
  have lines : u.lines = s.lines := h.frame .lines (by simp)
  rw [standPos, standPos, lineOf_congr h.settings, position, position, lines]

theorem caliperOf_eq (h : TrackerLeft s st x r p u) (r' : ReelRecord) : caliperOf u r' = caliperOf s r' := by
  rw [caliperOf, caliperOf, standParam, standParam, h.settings]

/-- A stand none of whose line's orders waits for placement has no positions to hand over (R95). -/
theorem handPositions_eq (h : TrackerLeft s st x r p u)
    (frozen : ∀ e ∈ vget s.schedules (lineOf s st), e.frozen = true) : handPositions st u = u := by
  have schedules : u.schedules = s.schedules := h.frame .schedules (by simp)
  have none : ((vget u.schedules (lineOf u st)).any fun e => e.stand == st && !e.frozen) = false := by
    rw [schedules, lineOf_congr h.settings, List.any_eq_false]
    intro e he
    simp [frozen e he]
  simp [handPositions, none]

theorem withTracker (h : TrackerLeft s st x r p u) (hn : y.reel = x.reel) :
    TrackerLeft s st y r p (setTracker u st (some y)) where
  frame := (h.frame.and_then setTracker_onlyIn).mono (by simp)
  tracker := by simp
  record := by rw [hn]; exact h.record
  port := h.port

theorem withRecord (h : TrackerLeft s st x r p u) (f : ReelRecord → ReelRecord) (hf : ∀ r, (f r).reel = r.reel) :
    TrackerLeft s st x (f r) p (modReel x.reel f u) where
  frame := (h.frame.and_then modReel_onlyIn).mono (by simp)
  tracker := by rw [modReel_trackers]; exact h.tracker
  record := by rw [reelOf_modReel_self hf, h.record]; rfl
  port := by rw [modReel_port]; exact h.port

/-- A raise of the stand's flag makes the port of s with the flag raised, also when it was raised before (R183). -/
theorem raise (h : TrackerLeft s st x r p u) (hp : p = s.port ∨ p = raisedPort s st) :
    TrackerLeft s st x r (raisedPort s st) (raiseStand st u) where
  frame := (h.frame.and_then raiseStand_onlyIn).mono (by simp)
  tracker := by rw [raiseStand_trackers]; exact h.tracker
  record := by rw [reelOf_congr (raiseStand_reels ..)]; exact h.record
  port := by
    rw [raiseStand_port]
    rcases hp with rfl | rfl
    · exact raisedPort_congr h.settings h.port
    · exact raisedPort_of_raised h.settings h.port

end TrackerLeft

/-! ## The RUNOUT check (R58) -/

/-- The runout that the check finds at a position and that the tracker does not hold yet. -/
def newlyOut (x : Tracker) (pos : Pos) : Bool := !x.runoutHeld && decide (extrapolated x pos = some 0)

/-- A tracker as the RUNOUT check leaves it. -/
def checkedTracker (x : Tracker) (pos : Pos) : Tracker :=
  { x with runoutHeld := decide (extrapolated x pos = some 0) }

/-- A record as the RUNOUT check of its tracker leaves it. -/
def checkedRecord (x : Tracker) (pos : Pos) (r : ReelRecord) : ReelRecord :=
  if newlyOut x pos then ranOutRecord r else r

/-- The port as the RUNOUT check of a stand's tracker leaves it. -/
def checkedPort (s : State) (st : StandId) (x : Tracker) (r : ReelRecord) : Port :=
  if newlyOut x (standPos s st) = true ∧ r.runout = false then raisedPort s st else s.port

/-- The check acts on a runout not held yet alone: the mark is then there. -/
theorem runoutDue_eq (x : Tracker) (pos : Pos) :
    (x.mark.isSome && !x.runoutHeld && extrapolated x pos == some 0) = newlyOut x pos := by
  unfold newlyOut extrapolated
  cases x.runoutHeld <;> cases x.mark <;> simp [beq_eq_decide]

theorem newlyOut_iff (x : Tracker) (pos : Pos) : newlyOut x pos = true ↔
    x.runoutHeld = false ∧ decide (extrapolated x pos = some 0) = true := by simp [newlyOut]

theorem checkedTracker_of_not {x : Tracker} {pos : Pos} (h : newlyOut x pos = false) : checkedTracker x pos = x := by
  have held : decide (extrapolated x pos = some 0) = x.runoutHeld := by
    unfold newlyOut at h
    cases hx : x.runoutHeld <;> simp_all [extrapolated]
  rw [checkedTracker, held]

section Check

variable {s u : State} {st : StandId} {x : Tracker} {r : ReelRecord} {p : Port}

theorem runoutCheck_eq (hx : vget s.trackers st = some x) (hr : reelOf s x.reel = some r) : runoutCheck st s =
    let out := modReel x.reel ranOutRecord (setTracker s st (some { x with runoutHeld := true }))
    if newlyOut x (standPos s st) then if r.runout then out else raiseStand st out else s := by
  simp only [runoutCheck, hx, runoutDue_eq, hr, Option.any_some]
  rfl

theorem TrackerLeft.check (h : TrackerLeft s st x r p u) (hp : p = s.port ∨ p = raisedPort s st) :
    TrackerLeft s st (checkedTracker x (standPos s st)) (checkedRecord x (standPos s st) r)
      (if newlyOut x (standPos s st) = true ∧ r.runout = false then raisedPort s st else p)
      (runoutCheck st u) := by
  rw [runoutCheck_eq h.tracker h.record, h.standPos_eq]
  cases out : newlyOut x (standPos s st) with
  | false => simpa [checkedRecord, out, checkedTracker_of_not out] using h
  | true =>
    have held : checkedTracker x (standPos s st) = { x with runoutHeld := true } := by
      rw [checkedTracker, ((newlyOut_iff ..).1 out).2]
    have run : TrackerLeft s st (checkedTracker x (standPos s st)) (ranOutRecord r) p
        (modReel x.reel ranOutRecord (setTracker u st (some { x with runoutHeld := true }))) := by
      rw [held]
      exact (h.withTracker (y := { x with runoutHeld := true }) rfl).withRecord ranOutRecord fun _ => rfl
    simp only [checkedRecord, out, if_true, true_and]
    cases was : r.runout with
    | true => simpa using run
    | false => simpa using run.raise hp

end Check

/-! ## Samples -/

section Samples

variable {s u : State} {st : StandId} {arm : Arm} {x y : Tracker} {r : ReelRecord} {c k : Nat} {pos : Pos}

theorem trackerInterval_hold (hx : vget s.trackers st = some x) (ha : x.arm = arm) (hs : x.state = .hold) :
    trackerInterval st arm c pos s = runoutCheck st s := by
  simp [trackerInterval, hx, ha, hs]

theorem trackerInterval_fault (hx : vget s.trackers st = some x) (ha : x.arm = arm) (hs : x.state = .fault) :
    trackerInterval st arm c pos s = recoverySample st x c pos s := by
  simp [trackerInterval, hx, ha, hs]

theorem trackerInterval_samples (hx : vget s.trackers st = some x) (ha : x.arm = arm)
    (hr : reelOf s x.reel = some r) (hs : x.state = .warming ∨ x.state = .tracking ∨ x.state = .learned) :
    trackerInterval st arm c pos s =
      if plausible x r.core c then acceptSample st x c pos s else runoutCheck st (rejectSample st x s) := by
  rcases hs with hs | hs | hs <;> simp [trackerInterval, hx, ha, hs, hr]

/-- A record as an accepted sample writes it (R52). -/
def sampledRecord (r : ReelRecord) (c rem : Nat) (full : Bool) (d : Nat × Bool) : ReelRecord :=
  { r with
    current := some c, remaining := some rem, learned := if full then some d.1 else none
    runout := decide (rem = 0), clamped := d.2 }

/-- A tracker with a window as an accepted sample leaves it (R52). -/
def sampledTracker (x : Tracker) (pos : Pos) (rem : Nat) (d : Nat × Bool) : Tracker :=
  { x with
    state := if decide (32 ≤ x.window.length) then .learned else .tracking
    delta := some d.1, mark := some ⟨pos, rem⟩, runoutHeld := false
    clampReported := x.clampReported || d.2 }

theorem finishSample_eq {d : Nat × Bool} (hr : reelOf s y.reel = some r) (hc : r.core < c)
    (hd : decrementOf (nominalDecrement (caliperOf s r)) y.window = d) : finishSample st y c pos s =
    let rem := 8 * (c * c - r.core * r.core) / d.1
    let out := modReel y.reel (fun r => sampledRecord r c rem (decide (32 ≤ y.window.length)) d)
      (setTracker s st (some (sampledTracker y pos rem d)))
    handPositions st
      (if (rem = 0 ∧ r.runout = false) ∨ (d.2 = true ∧ y.clampReported = false) then raiseStand st out
      else out) := by
  simp only [finishSample, hr, hd, remainingAt, if_pos hc, beq_eq_decide, Bool.or_eq_true, Bool.and_eq_true,
    decide_eq_true_eq, Bool.not_eq_true', sampledRecord, sampledTracker]

/-- Steps 3 to 8 of an accepted sample (R52), where the evaluation that follows moves nothing. -/
theorem TrackerLeft.finish {d : Nat × Bool} (h : TrackerLeft s st x r s.port u) (hn : y.reel = x.reel)
    (hc : r.core < c) (hd : decrementOf (nominalDecrement (caliperOf s r)) y.window = d)
    (frozen : ∀ e ∈ vget s.schedules (lineOf s st), e.frozen = true) :
    let rem := 8 * (c * c - r.core * r.core) / d.1
    TrackerLeft s st (sampledTracker y pos rem d) (sampledRecord r c rem (decide (32 ≤ y.window.length)) d)
      (if (rem = 0 ∧ r.runout = false) ∨ (d.2 = true ∧ y.clampReported = false) then raisedPort s st else s.port)
      (finishSample st y c pos u) := by
  intro rem
  have written := (h.withTracker (y := sampledTracker y pos rem d) hn).withRecord
    (fun r => sampledRecord r c rem (decide (32 ≤ y.window.length)) d) fun _ => rfl
  rw [finishSample_eq (by rw [hn]; exact h.record) hc (by rw [h.caliperOf_eq, hd])]
  dsimp only
  split
  · have raised := written.raise (.inl rfl)
    exact (raised.handPositions_eq frozen).symm ▸ raised
  · exact (written.handPositions_eq frozen).symm ▸ written

/-- A record as the third reject in a row writes it (R51). -/
def faultedRecord (x : Tracker) (r : ReelRecord) : ReelRecord :=
  { r with trackingFault := true, learned := if x.state == .learned then none else r.learned }

theorem checkedRecord_faulted (x : Tracker) (pos : Pos) (r : ReelRecord) :
    checkedRecord x pos (faultedRecord x r) = { checkedRecord x pos r with
      trackingFault := true, learned := if x.state = .learned then none else r.learned } := by
  cases out : newlyOut x pos <;> simp [checkedRecord, out, faultedRecord, ranOutRecord]

/-- Steps 1 and 2 of an accepted sample: the window and the counters, and in a recovery the candidate (R52, R64). -/
def takenTracker (x : Tracker) (window : List Nat) (c : Nat) : Tracker :=
  { x with
    window := window, cPrev := some c, rejects := 0
    candidate := if x.state = .fault then none else x.candidate
    relaxed := if x.state = .fault then x.relaxed else false }

/-- A sample accepted with a window, a decrement in use and DECREMENT_CLAMPED, from s to t (R52, R64). -/
def SampleWritten (s : State) (st : StandId) (x : Tracker) (r : ReelRecord) (c : Nat) (window : List Nat)
    (d : Nat × Bool) (t : State) : Prop :=
  let rem := 8 * (c * c - r.core * r.core) / d.1
  TrackerLeft s st (sampledTracker (takenTracker x window c) (standPos s st) rem d)
    (sampledRecord { r with trackingFault := if x.state = .fault then false else r.trackingFault } c rem
      (decide (32 ≤ window.length)) d)
    (if (rem = 0 ∧ r.runout = false) ∨ (d.2 = true ∧ x.clampReported = false) then raisedPort s st else s.port) t

variable (hx : vget s.trackers st = some x) (hr : reelOf s x.reel = some r)
  (frozen : ∀ e ∈ vget s.schedules (lineOf s st), e.frozen = true)

include hx hr frozen

/-- A plausible sample (R52). -/
theorem acceptSample_written (hs : x.state ≠ .fault) (hc : r.core < c) :
    SampleWritten s st x r c (pushSample x.window c)
      (decrementOf (nominalDecrement (caliperOf s r)) (pushSample x.window c))
      (acceptSample st x c (standPos s st) s) := by
  have taken : acceptSample st x c (standPos s st) s =
      finishSample st (takenTracker x (pushSample x.window c) c) c (standPos s st) s := by
    simp [acceptSample, takenTracker, hs]
  rw [taken, SampleWritten, if_neg hs]
  exact (TrackerLeft.refl hx hr).finish rfl hc rfl frozen

/-- A recovery sample within the tolerance of the candidate (R64). -/
theorem recover_written (hs : x.state = .fault) (hc : r.core < c) : SampleWritten s st x r c [k, c]
    (nominalDecrement (caliperOf s r), false) (recover st x k c (standPos s st) s) := by
  have taken : recover st x k c (standPos s st) s =
      finishSample st (takenTracker x [k, c] c) c (standPos s st)
        (modReel x.reel (fun r => { r with trackingFault := false }) s) := by
    simp only [recover, takenTracker, if_pos hs]
    rfl
  rw [taken, SampleWritten, if_pos hs]
  exact ((TrackerLeft.refl hx hr).withRecord (fun r => { r with trackingFault := false }) fun _ => rfl).finish
    (y := takenTracker x [k, c] c) rfl hc rfl frozen

omit frozen

/-- A first or a second reject in a row (R51). -/
theorem rejectSample_early (h : x.rejects < 2) :
    TrackerLeft s st { x with rejects := x.rejects + 1 } r s.port (rejectSample st x s) := by
  rw [rejectSample, if_pos (Nat.succ_lt_succ h)]
  exact (TrackerLeft.refl hx hr).withTracker rfl

/-- A third reject in a row (R51). -/
theorem rejectSample_third (h : 2 ≤ x.rejects) : TrackerLeft s st (faultedTracker x) (faultedRecord x r)
    (raisedPort s st) (rejectSample st x s) := by
  rw [rejectSample, if_neg (Nat.not_lt.2 (Nat.succ_le_succ h))]
  exact (((TrackerLeft.refl hx hr).withTracker (y := faultedTracker x) rfl).withRecord (faultedRecord x)
    fun _ => rfl).raise (.inl rfl)

/-- A candidate left by a recovery sample that recovers nothing, and the RUNOUT check made then (R58, R64). -/
theorem candidate_checked (k : Option Nat) : TrackerLeft s st
    (checkedTracker { x with candidate := k } (standPos s st)) (checkedRecord x (standPos s st) r)
    (checkedPort s st x r) (runoutCheck st (setTracker s st (some { x with candidate := k }))) :=
  ((TrackerLeft.refl hx hr).withTracker (y := { x with candidate := k }) rfl).check (.inl rfl)

omit hx

/-- A recovery sample that fails the first bound leaves no candidate (R64). -/
theorem recoverySample_out (h : ¬ (r.core < c ∧ c ≤ 42000)) : recoverySample st x c pos s =
    runoutCheck st (setTracker s st (some { x with candidate := none })) := by
  have out : firstBound r.core c = false := by rwa [← Bool.not_eq_true, firstBound_iff]
  simp [recoverySample, hr, out]

/-- A recovery sample with no candidate near it is the candidate (R64). -/
theorem recoverySample_far (h : r.core < c ∧ c ≤ 42000) (far : ∀ k, x.candidate = some k →
      ¬ gap c k ≤ recoveryTolerance (nominalDecrement (caliperOf s r))) : recoverySample st x c pos s =
    runoutCheck st (setTracker s st (some { x with candidate := some c })) := by
  simp only [recoverySample, hr, firstBound_iff.2 h]
  cases hk : x.candidate with
  | none => rfl
  | some k => simp [far k hk]

/-- A recovery sample near the candidate recovers the tracker (R64). -/
theorem recoverySample_near (h : r.core < c ∧ c ≤ 42000) (hk : x.candidate = some k)
    (near : gap c k ≤ recoveryTolerance (nominalDecrement (caliperOf s r))) :
    recoverySample st x c pos s = recover st x k c pos s := by
  simp [recoverySample, hr, firstBound_iff.2 h, hk, near]

end Samples

/-! ## An interval at the tracker, by its state -/

section Interval

variable {s : State} {st : StandId} {arm : Arm} {x : Tracker} {r : ReelRecord} {c k : Nat}
  (hx : vget s.trackers st = some x) (ha : x.arm = arm) (hr : reelOf s x.reel = some r)
  (frozen : ∀ e ∈ vget s.schedules (lineOf s st), e.frozen = true)

include hx ha hr

theorem interval_hold (hs : x.state = .hold) : TrackerLeft s st (checkedTracker x (standPos s st))
    (checkedRecord x (standPos s st) r) (checkedPort s st x r) (trackerInterval st arm c (standPos s st) s) := by
  rw [trackerInterval_hold hx ha hs]
  exact (TrackerLeft.refl hx hr).check (.inl rfl)

theorem interval_early_reject (hs : x.state = .warming ∨ x.state = .tracking ∨ x.state = .learned)
    (hp : ¬ plausible x r.core c = true) (h : x.rejects < 2) :
    TrackerLeft s st (checkedTracker { x with rejects := x.rejects + 1 } (standPos s st))
      (checkedRecord x (standPos s st) r) (checkedPort s st x r)
      (trackerInterval st arm c (standPos s st) s) := by
  rw [trackerInterval_samples hx ha hr hs, if_neg hp]
  exact (rejectSample_early hx hr h).check (.inl rfl)

/-- The third reject raises the stand's flag, whatever the RUNOUT check then finds (R51, R58). -/
theorem interval_third_reject (hs : x.state = .warming ∨ x.state = .tracking ∨ x.state = .learned)
    (hp : ¬ plausible x r.core c = true) (h : 2 ≤ x.rejects) :
    TrackerLeft s st (checkedTracker (faultedTracker x) (standPos s st))
      (checkedRecord x (standPos s st) (faultedRecord x r)) (raisedPort s st)
      (trackerInterval st arm c (standPos s st) s) := by
  rw [trackerInterval_samples hx ha hr hs, if_neg hp]
  have checked := (rejectSample_third hx hr h).check (.inr rfl)
  rwa [ite_self] at checked

theorem interval_fault_out (hs : x.state = .fault) (h : ¬ (r.core < c ∧ c ≤ 42000)) :
    TrackerLeft s st (checkedTracker { x with candidate := none } (standPos s st))
      (checkedRecord x (standPos s st) r) (checkedPort s st x r)
      (trackerInterval st arm c (standPos s st) s) := by
  rw [trackerInterval_fault hx ha hs, recoverySample_out hr h]
  exact candidate_checked hx hr none

theorem interval_fault_far (hs : x.state = .fault) (h : r.core < c ∧ c ≤ 42000)
    (far : ∀ k, x.candidate = some k → ¬ gap c k ≤ recoveryTolerance (nominalDecrement (caliperOf s r))) :
    TrackerLeft s st (checkedTracker { x with candidate := some c } (standPos s st))
      (checkedRecord x (standPos s st) r) (checkedPort s st x r)
      (trackerInterval st arm c (standPos s st) s) := by
  rw [trackerInterval_fault hx ha hs, recoverySample_far hr h far]
  exact candidate_checked hx hr (some c)

include frozen

theorem interval_fault_near (hs : x.state = .fault) (h : r.core < c ∧ c ≤ 42000) (hk : x.candidate = some k)
    (near : gap c k ≤ recoveryTolerance (nominalDecrement (caliperOf s r))) :
    SampleWritten s st x r c [k, c] (nominalDecrement (caliperOf s r), false)
      (trackerInterval st arm c (standPos s st) s) := by
  rw [trackerInterval_fault hx ha hs, recoverySample_near hr h hk near]
  exact recover_written hx hr frozen hs h.1

theorem interval_accepted (hs : x.state = .warming ∨ x.state = .tracking ∨ x.state = .learned)
    (hp : plausible x r.core c = true) : SampleWritten s st x r c (pushSample x.window c)
      (decrementOf (nominalDecrement (caliperOf s r)) (pushSample x.window c))
      (trackerInterval st arm c (standPos s st) s) := by
  rw [trackerInterval_samples hx ha hr hs, if_pos hp]
  exact acceptSample_written hx hr frozen (by rcases hs with hs | hs | hs <;> simp [hs])
    (plausible_iff.1 hp).1.1

end Interval

/-! ## The mark at the tracker of its arm -/

section Mark

variable {s : State} {st : StandId} {arm : Arm} {x : Tracker} {r : ReelRecord} {p : Port} {m : Pos} {w n : Nat}

/-- The interval that a mark closes is delivered to the tracker, the sequencer and the run (R8). -/
theorem exec_mark_delivers (hm : (armContext s st arm).lastMark = some m) (hw : w = (standPos s st - m).toNat) :
    exec (.revolutionMark st arm) s = .next (arbitrate
      (deliverInterval st arm w (armContext s st arm).tapeCount (standPos s st) (marked s st arm w))) := by
  have context := setArmContext_marked hm hw
  change execRevolutionMark st arm s = _
  simp only [execRevolutionMark, hm, context, distance, ← hw]

/-- Without a sequencer, what the tracker makes of the interval stands after the event. -/
theorem TrackerLeft.delivered (hq : vget s.sequencers st = none)
    (h : TrackerLeft s st x r p (trackerInterval st arm w (standPos s st) s)) :
    let t := arbitrate (deliverInterval st arm w n (standPos s st) s)
    vget t.trackers st = some x ∧ reelOf t x.reel = some r ∧ t.port = p := by
  have idle : sequencerInterval st arm w n (trackerInterval st arm w (standPos s st) s) =
      trackerInterval st arm w (standPos s st) s := by
    simp [sequencerInterval, h.sequencers, hq]
  simp only [deliverInterval, idle, arbitrate_trackers, verifyMark_trackers, arbitrate_port, verifyMark_port]
  refine ⟨h.tracker, ?_, h.port⟩
  rw [reelOf_congr ((arbitrate_reels _).trans (verifyMark_reels ..))]
  exact h.record

end Mark

/-- Settles O24: the mark delivers its interval to the tracker, whose state, the sample's bounds and the rejects say
which of the rules for a sample, a reject, a recovery sample or HOLD applies. -/
theorem trackerSamples : Obligations.TrackerSamples := by
  intro st arm s x r m c hx ha hr hm hc hq frozen
  refine ⟨_, exec_mark_delivers hm hc, ?_⟩
  intro samples first second nominal ranOut checked port written
  have accepted : ∀ {window d}, SampleWritten (marked s st arm c) st x r c window d
      (trackerInterval st arm c (standPos s st) (marked s st arm c)) → written window d.1 d.2 :=
    fun h => h.delivered hq
  have checks : newlyOut x (standPos s st) = true ↔ x.runoutHeld = false ∧ ranOut = true := newlyOut_iff ..
  have hrecord : checkedRecord x (standPos s st) r = checked := by
    simp only [checkedRecord, checks]
    rfl
  have hport : checkedPort s st x r = port := by
    simp only [checkedPort, checks, and_assoc]
    rfl
  rw [← hrecord, ← hport]
  refine ⟨fun hs h1 h2 => ?_, fun hs hn => ⟨fun h => ?_, fun h => ?_⟩, fun hs => ⟨fun h => ?_, fun h far => ?_,
    fun k h hk near => ?_⟩, fun hs => ?_⟩
  · have taken := accepted (interval_accepted hx ha hr frozen hs (plausible_iff.2 ⟨h1, h2⟩))
    intro window raw lo
    have last : decrementOf nominal window = if window.length < 32 then (nominal, false)
        else clampLearned nominal raw := decrementOf_append ..
    rw [pushSample_eq] at taken
    change written window (decrementOf nominal window).1 (decrementOf nominal window).2 at taken
    rw [last] at taken
    split_ifs with short low high
    · simpa only [if_pos short] using taken
    · simpa only [if_neg short, clampLearned_low low] using taken
    · simpa only [if_neg short, clampLearned_high low high] using taken
    · simpa only [if_neg short, clampLearned_within low high] using taken
  · exact (interval_early_reject (s := marked s st arm c) hx ha hr hs (by rwa [plausible_iff]) h).delivered hq
  · have left := TrackerLeft.delivered (s := marked s st arm c) (n := (armContext s st arm).tapeCount) hq
      (interval_third_reject hx ha hr hs (by rwa [plausible_iff]) h)
    rw [checkedRecord_faulted] at left
    exact left
  · exact (interval_fault_out (s := marked s st arm c) hx ha hr hs h).delivered hq
  · exact (interval_fault_far (s := marked s st arm c) hx ha hr hs h fun k hk e =>
      far k hk (gap_le_iff.1 e)).delivered hq
  · exact accepted (interval_fault_near (s := marked s st arm c) hx ha hr frozen hs h hk (gap_le_iff.2 near))
  · exact (interval_hold (s := marked s st arm c) hx ha hr hs).delivered hq

end Sys2Proof.Machine
end

section
/-! Orders stay in their rows (R69, R86): all commands but six keep both tables, and of those six the three that
neither release nor reset leave every order that stands. -/

namespace Sys2Proof.Machine

open Sys2Proof

/-- Every order stays in its row as a row is kept. -/
def OrdersKept (s t : State) : Prop := ∀ r row, vget s.rows r = some row → RowKept (some row) (vget t.rows r)

section Orders

variable {s t : State}

theorem OrdersKept.of_rows (h : t.rows = s.rows) : OrdersKept s t := fun r row hr => by rw [h, hr]; exact .refl _

theorem TablesKept.orders (h : TablesKept s t) : OrdersKept s t := fun r _ hr => hr ▸ h.rows r

theorem ordersKept_ofTables (s : State) : OfTables (OrdersKept s) := by
  intro u v _ hw h
  unfold OrdersKept
  rw [hw]
  exact h

theorem enterReelBody_orders (p : List Byte) (hw : t.rows = s.rows) : OrdersKept s (enterReelBody p t).1 := by
  rcases enterReelBody_cases p t with e | ⟨i, x, -, -, e⟩ <;> rw [e] <;> exact .of_rows hw

theorem amendReelBody_orders (p : List Byte) (hw : t.rows = s.rows) : OrdersKept s (amendReelBody p t).1 := by
  rcases amendReelBody_cases p t with e | ⟨i, x, y, -, -, e⟩ <;> rw [e] <;> exact .of_rows hw

/-- The new order takes an EMPTY row, so that every order before it stands in another (R68). -/
theorem orderSpliceBody_orders (p : List Byte) (hw : t.rows = s.rows) : OrdersKept s (orderSpliceBody p t).1 := by
  rcases orderSpliceBody_cases p t with e | ⟨i, new, hi, -, -, e⟩
  · rw [e]; exact .of_rows hw
  · intro r row hr
    have ne : r ≠ i := by rintro rfl; rw [hw, hr] at hi; cases hi
    have kept := (createOrder_keeps i new t).rows r
    rw [setAllocStart_rows, setRow_rows_ne _ ne, hw, hr] at kept
    rwa [e]

end Orders

/-- Settles O8: what a command that edits neither table keeps is more than this; the reel commands write no row,
and ORDER SPLICE only one that is EMPTY. -/
theorem closedRowsAreKept : Obligations.ClosedRowsAreKept := by
  intro c s t hrel hres hpow h
  have tables := ordersKept_ofTables s
  have self : OrdersKept s s := .of_rows rfl
  suffices Leaves (OrdersKept s) (exec c s) from this t h
  by_cases hc : editsTables c = false
  · exact fun t h => (exec_tables c s hc t h).orders
  · cases c with
    | powerOnReset a => exact absurd rfl (hpow a)
    | releaseOrder a p => exact absurd rfl (hrel a p)
    | restart a p => exact absurd rfl (hres a p)
    | enterReel a p =>
      exact answerCommand_ofTables tables self _ a _ (withLength_ofTables tables self _ p
        fun _ _ hw => enterReelBody_orders p hw)
    | amendReel a p =>
      exact answerCommand_ofTables tables self _ a _ (withLength_ofTables tables self _ p
        fun _ _ hw => amendReelBody_orders p hw)
    | orderSplice a p =>
      exact answerAndSend_ofTables tables self _ a _ (withLength_ofTables tables self _ p
        fun _ _ hw => orderSpliceBody_orders p hw)
    | _ => exact absurd rfl hc

end Sys2Proof.Machine
end

section
/-! The commit test and the latest commit point of a waiting order (R76, R78, R79, R81). -/

namespace Sys2Proof.Machine

open Sys2Proof

/-! ## The commit test by its branches (R76) -/

section Tests

variable {s : State} {r : RowId} {row : OrderRow} {p : Placement} {a : Nat}

theorem commitTest_notConfirmed (h : vget s.rows r = some row) (hw : row.state.waiting = true)
    (hp : row.place = some p) (ha : row.distance = some a) (hg : row.go = false)
    (hl : atOrAfter (position s (lineOf s row.stand)) (back p.plate a) = true) :
    commitTest r s = closeRow r .dropped (some .notConfirmed) none false s := by
  simp [commitTest, h, hw, hp, ha, hg, hl]

theorem commitTest_holds (h : vget s.rows r = some row) (hs : row.state = .armed) (hp : row.place = some p)
    (ha : row.distance = some a) (hg : row.go = false)
    (hl : atOrAfter (position s (lineOf s row.stand)) (back p.plate a) = false) :
    commitTest r s =
      (raiseRow r row.stand (setRow s r (some { row with state := .held, past := false })), 0) := by
  simp [commitTest, h, hs, OrderState.waiting, hp, ha, hg, hl]

theorem commitTest_dropsSlow (h : vget s.rows r = some row) (hw : row.state.waiting = true)
    (hp : row.place = some p) (ha : row.distance = some a) (hg : row.go = true)
    (hf : belowSpliceFloor s (lineOf s row.stand) = true)
    (hl : atOrAfter (position s (lineOf s row.stand)) (back p.plate a) = true) :
    commitTest r s = closeRow r .dropped (some .speedLow) none false s := by
  simp [commitTest, h, hw, hp, ha, hg, hf, hl]

theorem lineOfRow_eq (h : vget s.rows r = some row) : lineOfRow s r = lineOf s row.stand := by
  simp [lineOfRow, h]

/-- A commit test that closes the row is the row's close. -/
theorem testOrder_closes {o : OrderState} {why : OrderReason} {b : Bool}
    (h : commitTest r s = closeRow r o (some why) none b s) : testOrder r s = closeOrder r o why b s := by
  rw [testOrder, h]
  rfl

/-- A commit test that causes no evaluation leaves what it writes. -/
theorem testOrder_still {t : State} (h : commitTest r s = (t, 0)) : testOrder r s = t := by
  rw [testOrder, h, settle_zero]

theorem commitPointDue_armed (h : vget s.rows r = some row) (hs : row.state = .armed) (hpa : row.past = false)
    (hp : row.place = some p) (ha : row.distance = some a)
    (hq : atOrAfter (standPos s row.stand) (back p.q a) = true) : commitPointDue s r = true := by
  simp [commitPointDue, h, hs, hpa, OrderRow.commitPoint, OrderState.waiting, hp, ha, hq]

theorem latestDue_waiting (h : vget s.rows r = some row) (hw : row.state.waiting = true)
    (hp : row.place = some p) (ha : row.distance = some a)
    (hl : atOrAfter (standPos s row.stand) (back p.plate a) = true) : latestDue s r = true := by
  simp [latestDue, h, OrderRow.latestCommitPoint, hw, hp, ha, hl]

end Tests

/-! ## The two reports -/

section Reports

variable {s : State} {r : RowId} {row : OrderRow} {why : OrderReason}

theorem exec_commitPointReport (h : commitPointDue s r = true) :
    exec (.commitPointReport r) s = .next (arbitrate (testOrder r s)) := by
  change execCommitPointReport r s = _
  rw [execCommitPointReport, reportCommitPoint, if_pos h]

/-- A latest report that closes the row is the row's close. -/
theorem exec_latest_closes (hd : latestDue s r = true)
    (h : latestReport r s = closeRow r .dropped (some why) none false s) :
    exec (.latestCommitPointReport r) s = .next (arbitrate (closeOrder r .dropped why false s)) := by
  change execLatestCommitPointReport r s = _
  rw [execLatestCommitPointReport, reportLatest, if_pos hd, h]
  rfl

/-- A row ARMED and not past is tested at its latest commit point (R79). -/
theorem exec_latest_tests (hd : latestDue s r = true) (h : vget s.rows r = some row) (hs : row.state = .armed)
    (hp : row.past = false) : exec (.latestCommitPointReport r) s = .next (arbitrate (testOrder r s)) := by
  have tests : latestReport r s = commitTest r s := by simp [latestReport, h, hs, hp]
  change execLatestCommitPointReport r s = _
  rw [execLatestCommitPointReport, reportLatest, if_pos hd, tests]
  rfl

theorem latestReport_held (h : vget s.rows r = some row) (hs : row.state = .held) :
    latestReport r s = closeRow r .dropped (some .notConfirmed) none false s := by
  simp [latestReport, h, hs]

theorem latestReport_past (h : vget s.rows r = some row) (hs : row.state = .armed) (hp : row.past = true) :
    latestReport r s = closeRow r .dropped (some .speedLow) none false s := by
  simp [latestReport, h, hs, hp]

end Reports

/-! ## What a drop and a commit leave -/

section Left

variable {s t : State} {r : RowId} {row : OrderRow} {p : Placement} {a c : Nat} {new : ReelRecord}

/-- Every close with its evaluations reaches these parts alone. -/
theorem closeOrder_onlyIn (r : RowId) (o : OrderState) (why : OrderReason) (b : Bool) (s : State) :
    OnlyIn [.reels, .verifies, .rows, .schedules, .sequencers, .bus, .port] s (closeOrder r o why b s) :=
  (closeOrder_keeps (.refl s)).onlyIn_lines (by simp) (by simp) (by simp) (by simp)

/-- A close and the arbiter's choice: the row closed, its flag raised, and the frame (R81). -/
theorem closeOrder_closed {o : OrderState} {why : OrderReason} (h : vget s.rows r = some row)
    (ho : row.state.isOpen = true) (hw : o.waiting = false)
    (ht : t = arbitrate (closeOrder r o why false s)) :
    vget t.rows r = some (closedRow row o (some why) none) ∧
      (standParam s row.stand 13 = 1 → flagSet t (8 + r.val) = true) ∧
      OnlyIn [.reels, .verifies, .rows, .schedules, .sequencers, .bus, .port] s t := by
  subst ht
  refine ⟨?_, fun he => ?_, ?_⟩
  · rw [arbitrate_rows]
    exact closeOrder_rows h ho hw
  · exact flagSet_of_port (arbitrate_port _) (closeOrder_flag h ho he)
  · exact ((closeOrder_onlyIn r o why false s).and_then (arbitrate_onlyIn _)).mono (by simp)

/-- What the evaluations that a commit causes leave of its row (R78). -/
theorem testOrder_commits (h : vget s.rows r = some row) (hw : row.state.waiting = true)
    (hpl : row.place = some p) (ha : row.distance = some a) (hg : row.go = true)
    (hf : belowSpliceFloor s (lineOf s row.stand) = false) :
    vget (testOrder r s).rows r = some { row with
      state := .accelerating, past := false, speedLow := false
      late := atOrAfter (standPos s row.stand) (back p.plate a)
      commitment := some ⟨standPos s row.stand, frozenSettings s row.stand,
        matchDeadline p.plate (standPos s row.stand) (newReelOutside s row) a, 0⟩ } := by
  rw [testOrder, commitTest_commits h hw hpl ha hg hf]
  refine settle_rows ?_ rfl
  rw [commitRow_rows, vget_vset_self]
  rfl

/-- A waiting row that commits, with the evaluations that this causes (R30, R78, R107, R108). -/
theorem testOrder_made (h : vget s.rows r = some row) (hw : row.state.waiting = true) (hp : row.place = some p)
    (ha : row.distance = some a) (hg : row.go = true) (hf : belowSpliceFloor s (lineOf s row.stand) = false)
    (hn : reelOf s row.newReel = some new) (hc : new.outside = some c) :
    CommitMade r row p a new c s (arbitrate (testOrder r s)) := by
  have ho := waiting_isOpen hw
  have outside : newReelOutside s row = c := newReelOutside_eq hn hc
  have commits := testOrder_commits h hw hp ha hg hf
  rw [outside] at commits
  rw [testOrder, lineOfRow_eq h, commitTest_commits h hw hp ha hg hf] at commits ⊢
  generalize atOrAfter (position s (lineOf s row.stand)) (back p.plate a) = late at commits ⊢
  have only : Keeps s (commitRow r row p a late s).1 := commitRow_keeps (.refl s) h ho
  have keeps := arbitrate_keeps (settle_keeps (l := lineOf s row.stand) (n := (commitRow r row p a late s).2)
    (.refl (commitRow r row p a late s).1))
  refine ⟨(congrArg (vget · r) (arbitrate_rows _)).trans commits,
    fun he => keeps.flags _ (commitRow_flag h ho he), fun hz => ?_,
    (only.trans keeps).onlyIn_lines (by simp) (by simp) (by simp) (by simp)⟩
  rw [settle_of_frozen (commitRow_frozen hz)]
  refine ⟨?_, asked_arbitrate (outside ▸ mem_commitRow), fun hready ht => ?_⟩
  · rw [arbitrate_sequencers, commitRow_sequencer, outside]
  · rw [reelOf, (SameNumbers.of_reels ((arbitrate_reels _).trans commitRow_reels)).findReel_eq, arbitrate_reels,
      commitRow_reels]
    exact commitReel_ready hn ht hready

end Left

/-- Settles O27: each report is one branch of the commit test, or the drop that R79 makes without it. -/
theorem waitingOrdersHoldOrDrop : Obligations.WaitingOrdersHoldOrDrop := by
  intro r s row p a h hp ha slow atLimit drops
  have floor : slow → belowSpliceFloor s (lineOf s row.stand) = true := fun hv => decide_eq_true hv
  have late : atLimit → atOrAfter (standPos s row.stand) (back p.plate a) = true := (atOrAfter_iff ..).2
  have ahead : ¬ atLimit → atOrAfter (standPos s row.stand) (back p.plate a) = false := fun hl =>
    (atOrAfter_eq_false_iff ..).2 (Nat.le_of_not_lt hl)
  have dropped : ∀ (c : Instr) why, row.state.isOpen = true →
      exec c s = .next (arbitrate (closeOrder r .dropped why false s)) → drops c why := fun c why ho step =>
    ⟨_, step, closeOrder_closed h ho rfl rfl⟩
  constructor
  · intro hs hpa hq
    have hw : row.state.waiting = true := by rw [hs]; rfl
    have ho := waiting_isOpen hw
    have step := exec_commitPointReport (commitPointDue_armed h hs hpa hp ha ((atOrAfter_iff ..).2 hq))
    refine ⟨fun hg hl hn => ?_, fun hg hl => ?_, fun hg hv hl hn => ?_, fun hg hv hl => ?_⟩
    · rw [step, testOrder_still (commitTest_holds h hs hp ha hg (ahead hl)), raiseRow_eq,
        arbitrate_eq_self (by exact hn), ← hpa]
      rfl
    · exact dropped _ _ ho (by rw [step, testOrder_closes (commitTest_notConfirmed h hw hp ha hg (late hl))])
    · rw [step, testOrder_still (commitTest_speedLow h hw hp ha hg (floor hv) (ahead hl)),
        arbitrate_eq_self (by exact hn), ← hs]
      rfl
    · exact dropped _ _ ho (by rw [step, testOrder_closes (commitTest_dropsSlow h hw hp ha hg (floor hv) (late hl))])
  · intro hl
    have due : row.state.waiting = true → latestDue s r = true := fun hw =>
      latestDue_waiting h hw hp ha (late hl)
    refine ⟨fun hs => ?_, fun hs hpa => ?_, fun hs hpa => ?_⟩
    · exact dropped _ _ (by rw [hs]; rfl) (exec_latest_closes (due (by rw [hs]; rfl)) (latestReport_held h hs))
    · exact dropped _ _ (by rw [hs]; rfl) (exec_latest_closes (due (by rw [hs]; rfl)) (latestReport_past h hs hpa))
    · have hw : row.state.waiting = true := by rw [hs]; rfl
      have step := exec_latest_tests (due hw) h hs hpa
      refine ⟨fun hg => ?_, fun hg hv => ?_, fun new c hg hv hn hc => ⟨decide_eq_true hl, _, step, ?_⟩⟩
      · exact dropped _ _ (waiting_isOpen hw)
          (by rw [step, testOrder_closes (commitTest_notConfirmed h hw hp ha hg (late hl))])
      · exact dropped _ _ (waiting_isOpen hw)
          (by rw [step, testOrder_closes (commitTest_dropsSlow h hw hp ha hg (floor hv) (late hl))])
      · exact testOrder_made h hw hp ha hg (decide_eq_false hv) hn hc

end Sys2Proof.Machine
end

section
/-! CONFIRM, CANCEL ORDER and RELEASE ORDER by the state of the row (R69, R75, R80, R83, R87). -/

namespace Sys2Proof.Machine

open Sys2Proof

/-! ## The order of a tag (R69) -/

section Named

variable {s : State} {p : List Byte} {i : RowId} {row : OrderRow} {f : RowId → OrderRow → State → State × Reply}

theorem withOrder_none (ht : item p 0 1 ≤ 63) (h : rowOfTag s (item p 0 1) = none) :
    withOrder p f s = reply .noSuchOrder s := by
  simp [withOrder, ht, h]

theorem withOrder_some (ht : item p 0 1 ≤ 63) (h : rowOfTag s (item p 0 1) = some i)
    (hr : vget s.rows i = some row) : withOrder p f s = f i row s := by
  simp [withOrder, ht, h, hr]

end Named

/-! ## Answers -/

section Answers

variable {s u : State} {ad code : Byte} {n : Nat} {p : List Byte} {body : State → State × Reply} {x : Status}
  {items : List Byte}

/-- A body that refuses leaves the state, and the arbiter has nothing to send. -/
theorem answerAndSend_refuses (h : Addressed s ad) (hp : p.length = n) (hw : NothingWaits s)
    (hb : body (endParamRun s) = reply x (endParamRun s)) :
    answerAndSend .plain ad code (withLength n p body) s =
      .next { s with port := answering s.port code x [] } := by
  rw [answerAndSend_answers h hp hb rfl, arbitrate_eq_self (by exact hw)]
  rfl

theorem answerCommand_refuses (h : Addressed s ad) (hp : p.length = n)
    (hb : body (endParamRun s) = reply x (endParamRun s)) :
    answerCommand .plain ad code (withLength n p body) s =
      .next { s with port := answering s.port code x [] } :=
  answerCommand_answers (t := endParamRun s) h hp hb rfl

/-- The frame of an answered command whose body stays in the orders' parts. -/
theorem answered_onlyIn
    (h : OnlyIn [.reels, .verifies, .rows, .schedules, .sequencers, .bus, .port] (endParamRun s) u) :
    OnlyIn [.reels, .verifies, .rows, .schedules, .sequencers, .bus, .port] s
      (arbitrate { u with port := answering u.port code x items }) :=
  ((((endParamRun_onlyIn s).and_then h).and_then setPort_onlyIn).and_then (arbitrate_onlyIn _)).mono (by simp)

end Answers

/-! ## CONFIRM (R75, R80) -/

theorem raisedRowPort_run (s : State) (i : RowId) (st : StandId) :
    (raisedRowPort s i st).run = s.port.run := by
  unfold raisedRowPort
  split <;> rfl

/-- A HELD row confirmed: go set and ARMED past its commit point, with its flag raised, before the commit test
(R75). -/
def rowConfirmed (i : RowId) (row : OrderRow) (s : State) : State := { s with
  rows := vset s.rows i (some { row with go := true, state := .armed, past := true })
  port := raisedRowPort s i row.stand }

section Confirm

variable {s : State} {ad : Byte} {p : List Byte} {i : RowId} {row : OrderRow} {place : Placement} {a : Nat}

theorem confirmRow_held (h : row.state = .held) :
    confirmRow i row s = (testOrder i (rowConfirmed i row s), ⟨.ok, []⟩) := by
  simp only [confirmRow, h]
  rw [raiseRow_eq]
  rfl

theorem rowConfirmed_row : vget (rowConfirmed i row s).rows i =
    some { row with go := true, state := .armed, past := true } := vget_vset_self ..

theorem rowConfirmed_onlyIn : OnlyIn [.rows, .port] s (rowConfirmed i row s) := by
  intro b hb
  cases b
  case rows | port => simp at hb
  all_goals rfl

/-- A commit test with its evaluations reaches these parts alone. -/
theorem testOrder_onlyIn (i : RowId) (s : State) :
    OnlyIn [.reels, .verifies, .rows, .schedules, .sequencers, .bus, .port] s (testOrder i s) :=
  (testOrder_keeps (.refl s)).onlyIn_lines (by simp) (by simp) (by simp) (by simp)

theorem rowConfirmed_run (i : RowId) (row : OrderRow) (s : State) :
    (testOrder i (rowConfirmed i row (endParamRun s))).port.run = none := by
  rw [(testOrder_keeps (.refl _)).run]
  exact raisedRowPort_run ..

/-- The command on a HELD row is the commit test of the row confirmed, answered (R80). -/
theorem exec_confirm_held (had : Addressed s ad) (hp : p.length = 1)
    (hb : confirmBody p (endParamRun s) = confirmRow i row (endParamRun s)) (hs : row.state = .held) :
    exec (.confirm ad p) s = .next (arbitrate { testOrder i (rowConfirmed i row (endParamRun s)) with
      port := answering (testOrder i (rowConfirmed i row (endParamRun s))).port 0x11 .ok [] }) :=
  answerAndSend_answers had hp (hb.trans (confirmRow_held hs)) (rowConfirmed_run i row s)

theorem testOrder_rowConfirmed_onlyIn :
    OnlyIn [.reels, .verifies, .rows, .schedules, .sequencers, .bus, .port] s (testOrder i (rowConfirmed i row s)) :=
  (rowConfirmed_onlyIn.and_then (testOrder_onlyIn i _)).mono (by simp)

/-- CONFIRM of a HELD row below the splice floor, before the latest commit point: the row ARMED and past, and no
evaluation (R76). -/
theorem exec_confirm_slow (had : Addressed s ad) (hp : p.length = 1) (hw : NothingWaits s)
    (hb : confirmBody p (endParamRun s) = confirmRow i row (endParamRun s)) (hs : row.state = .held)
    (hpl : row.place = some place) (ha : row.distance = some a)
    (hf : belowSpliceFloor s (lineOf s row.stand) = true)
    (hl : atOrAfter (standPos s row.stand) (back place.plate a) = false) :
    exec (.confirm ad p) s = .next { s with
      rows := vset s.rows i (some { row with go := true, state := .armed, past := true, speedLow := true })
      port := answering (raisedRowPort s i row.stand) 0x11 .ok [] } := by
  have tested := testOrder_still
    (commitTest_speedLow (s := rowConfirmed i row (endParamRun s)) rowConfirmed_row rfl hpl ha rfl hf hl)
  rw [exec_confirm_held had hp hb hs, tested, arbitrate_eq_self (by exact hw)]
  simp only [setRow, rowConfirmed, vset_vset, answering_endParamRun]
  rfl

end Confirm

/-! ## The two other commands, and the refusals (R75, R83, R87) -/

section Rows

variable {s : State} {i : RowId} {row : OrderRow}

theorem confirmRow_refuses (h1 : row.state ≠ .armed) (h2 : row.state ≠ .held) :
    confirmRow i row s = reply .wrongState s := by
  unfold confirmRow
  split
  case h_1 | h_2 => contradiction
  all_goals rfl

theorem cancelRow_closes
    (h : row.state = .armed ∨ row.state = .held ∨ row.state = .accelerating ∨ row.state = .matched) :
    cancelRow i row s = (closeOrder i .cancelled .console false s, ⟨.ok, []⟩) := by
  rcases h with e | e | e | e <;> simp only [cancelRow, e] <;> rfl

theorem cancelRow_refuses (h1 : row.state ≠ .armed) (h2 : row.state ≠ .held) (h3 : row.state ≠ .accelerating)
    (h4 : row.state ≠ .matched) : cancelRow i row s = reply .wrongState s := by
  unfold cancelRow
  split
  case h_1 | h_2 | h_3 | h_4 => contradiction
  all_goals rfl

/-- A closed row is emptied and its flag raised (R87). -/
theorem releaseRow_empties (h : row.state.isOpen = false) : releaseRow i row s =
    ({ s with rows := vset s.rows i none, port := raisedRowPort s i row.stand }, ⟨.ok, []⟩) := by
  rw [releaseRow, if_neg (by simp [h]), raiseRow_eq]
  rfl

end Rows

/-- Settles O55: each command is one branch of its body by the row's state. -/
theorem orderCommands : Obligations.OrderCommands := by
  intro ad p s had hp ht hw answers
  refine ⟨fun hnone => ⟨?_, ?_, ?_⟩, fun i row hi hr => ?_⟩
  · exact answerAndSend_refuses had hp hw (withOrder_none ht hnone)
  · exact answerAndSend_refuses had hp hw (withOrder_none ht hnone)
  · exact answerCommand_refuses had hp (withOrder_none ht hnone)
  have confirms : confirmBody p (endParamRun s) = confirmRow i row (endParamRun s) := withOrder_some ht hi hr
  have cancels : cancelOrderBody p (endParamRun s) = cancelRow i row (endParamRun s) := withOrder_some ht hi hr
  have releases : releaseOrderBody p (endParamRun s) = releaseRow i row (endParamRun s) := withOrder_some ht hi hr
  refine ⟨fun hs => ?_, fun place a hs hpl ha => ?_, fun h1 h2 => ?_, fun hs => ?_, fun h1 h2 h3 h4 => ?_,
    fun ho => ?_, fun ho => ?_⟩
  · rw [show exec (.confirm ad p) s = _ from answerAndSend_answers
      (t := setRow (endParamRun s) i (some { row with go := true })) had hp
      (confirms.trans (by simp only [confirmRow, hs]; rfl)) rfl, arbitrate_eq_self (by exact hw)]
    rfl
  · have step := exec_confirm_held had hp confirms hs
    have only := answered_onlyIn (code := 0x11) (x := .ok) (items := [])
      (testOrder_rowConfirmed_onlyIn (s := endParamRun s) (i := i) (row := row))
    refine ⟨fun hv hl => ?_, fun hv hl => ⟨_, step, ?_, ?_, only⟩, fun hv => ?_⟩
    · exact exec_confirm_slow had hp hw confirms hs hpl ha (decide_eq_true hv) ((atOrAfter_eq_false_iff ..).2 hl)
    · have drops := testOrder_closes (commitTest_dropsSlow (s := rowConfirmed i row (endParamRun s))
        rowConfirmed_row rfl hpl ha rfl (decide_eq_true hv) ((atOrAfter_iff ..).2 hl))
      rw [arbitrate_rows, drops]
      exact closeOrder_rows rowConfirmed_row rfl rfl
    · rw [arbitrate_port]
      rfl
    · have commits := testOrder_commits (s := rowConfirmed i row (endParamRun s)) rowConfirmed_row rfl hpl ha rfl
        (decide_eq_false (Nat.not_lt.2 hv))
      refine ⟨_, _, step, (congrArg (vget · i) (arbitrate_rows _)).trans commits, rfl, rfl, rfl, rfl, rfl, rfl, ?_,
        only⟩
      rw [arbitrate_port]
      rfl
  · exact answerAndSend_refuses had hp hw (confirms.trans (confirmRow_refuses h1 h2))
  · have ho : row.state.isOpen = true := by rcases hs with e | e | e | e <;> rw [e] <;> rfl
    refine ⟨_, answerAndSend_answers had hp (cancels.trans (cancelRow_closes hs))
      (closeOrder_keeps (.refl _)).run, ?_, ?_, answered_onlyIn (closeOrder_onlyIn _ _ _ _ _)⟩
    · rw [arbitrate_rows]
      exact closeOrder_rows (s := endParamRun s) hr ho rfl
    · rw [arbitrate_port]
      rfl
  · exact answerAndSend_refuses had hp hw (cancels.trans (cancelRow_refuses h1 h2 h3 h4))
  · rw [show exec (.releaseOrder ad p) s = _ from answerCommand_answers had hp
      (releases.trans (releaseRow_empties ho)) (raisedRowPort_run ..), answering_endParamRun]
    rfl
  · exact answerCommand_refuses had hp (releases.trans (if_pos ho))

end Sys2Proof.Machine
end

section
/-! A CLOSING order that becomes DONE (R86, R122, R123, R125). -/

namespace Sys2Proof.Machine

open Sys2Proof

/-! ## The close of a CLOSING order -/

section Closing

variable {s : State} {r : RowId} {row : OrderRow} {d : Option DoneResults}

/-- Past its paste an order is not aborted, so its close starts no verification and queues no request (R81). -/
theorem abortable_closing (hs : row.state = .closing) : abortable s row = false := by
  simp [abortable, hs]

theorem closeRow_closing_onlyIn (h : vget s.rows r = some row) (hs : row.state = .closing) :
    OnlyIn [.reels, .rows, .schedules, .sequencers, .bus, .port] s (closeRow r .done none d false s).1 := by
  have ho : row.state.isOpen = true := by rw [hs]; rfl
  refine (closeRow_keeps (.refl s)).onlyIn fun b hb hm => ?_
  cases b
  case arms => exact closeRow_arms ..
  case outputs => exact closeRow_outputs ..
  case trackers => exact closeRow_trackers ..
  case stands => exact closeRow_stands ..
  case verifies =>
    refine (closeRow_verifies .done none d false h ho).trans ?_
    simp [releaseOrderOf, abortable_closing hs, hs, OrderState.waiting]
  all_goals simp at hb hm

end Closing

/-! ## The sequencer in CLOSING (R125) -/

/-- A stand's sequencer in CLOSING, of an order that is CLOSING with its fire positions. -/
structure ClosingOrder (st : StandId) (q : Sequencer) (row : OrderRow) (f : FirePositions) (s : State) : Prop where
  sequencer : vget s.sequencers st = some q
  phase : q.phase = .closing
  order : vget s.rows q.row = some row
  state : row.state = .closing
  stand : row.stand = st
  fire : row.fire = some f

/-- The row of an order closed DONE, with its results (R86). -/
def doneRow (q : Sequencer) (row : OrderRow) (f : FirePositions) : OrderRow :=
  closedRow row .done none (some ⟨f.pn, q.stub, q.cutConfirmed, q.faultAfterPaste⟩)

theorem modSequencer_some {s : State} {st : StandId} {q : Sequencer} {g : Sequencer → Sequencer}
    (h : vget s.sequencers st = some q) : modSequencer st g s = setSequencer s st (some (g q)) := by
  rw [modSequencer, h]
  rfl

namespace ClosingOrder

variable {s v t : State} {st : StandId} {q : Sequencer} {row : OrderRow} {f : FirePositions}

theorem awaitsRetract_eq (h : ClosingOrder st q row f s) : awaitsRetract s st = !q.retractEnded := by
  simp [awaitsRetract, h.sequencer, h.phase]

theorem awaitsCut_eq (h : ClosingOrder st q row f s) : awaitsCut s st = q.cutWait.isSome := by
  simp [awaitsCut, h.sequencer, h.phase]

theorem cutEnd_eq (h : ClosingOrder st q row f s) : cutEnd s st = q.cutWait := by
  simp [cutEnd, h.sequencer, h.phase, Option.filter]

theorem retractEnd_eq (h : ClosingOrder st q row f s) : retractEnd s st = q.retractWait := by
  simp [retractEnd, h.sequencer, h.phase, Option.filter]

theorem keep (h : ClosingOrder st q row f s) (hv : OnlyIn [.now, .bus, .stands, .port] s v) :
    ClosingOrder st q row f v :=
  ⟨by rw [hv .sequencers (by simp)]; exact h.sequencer, h.phase, by rw [hv .rows (by simp)]; exact h.order, h.state,
    h.stand, h.fire⟩

section Met

variable (h : ClosingOrder st q row f s) (hcut : cutMet q = true) (hret : q.retractEnded = true)

include h hcut hret

theorem tryCloseDone_eq : tryCloseDone st s =
    (closeRow q.row .done none (some ⟨f.pn, q.stub, q.cutConfirmed, q.faultAfterPaste⟩) false s).1 := by
  simp [tryCloseDone, h.sequencer, h.phase, hcut, hret, h.order, h.fire]

theorem done_rows : (tryCloseDone st s).rows = vset s.rows q.row (some (doneRow q row f)) := by
  rw [h.tryCloseDone_eq hcut hret, closeRow_rows _ _ _ _ h.order (by rw [h.state]; rfl)]
  rfl

theorem done_sequencers : (tryCloseDone st s).sequencers = vset s.sequencers st none := by
  rw [h.tryCloseDone_eq hcut hret, closeRow_sequencers _ _ _ _ h.order (by rw [h.state]; rfl), h.state, h.stand]
  rfl

theorem done_onlyIn : OnlyIn [.reels, .rows, .schedules, .sequencers, .bus, .port] s (tryCloseDone st s) := by
  rw [h.tryCloseDone_eq hcut hret]
  exact closeRow_closing_onlyIn h.order h.state

end Met

/-- One of the ways to DONE: what comes before the sequencer's part, the part met, the close, and what then becomes
of the bus alone. -/
theorem ends {c : Instr} {g : Sequencer → Sequencer} {cut : Bool} {also : State → Prop}
    (h : ClosingOrder st q row f s) (before : OnlyIn [.now, .bus, .stands, .port] s v)
    (hg : g q = { q with
      cutConfirmed := cut, cutWait := (g q).cutWait, retractWait := (g q).retractWait, retractEnded := true })
    (hcut : cutMet (g q) = true)
    (after : OnlyIn [.bus] (tryCloseDone st (modSequencer st g v)) t) (step : exec c s = .next t) (ha : also t) :
    ∃ t, exec c s = .next t ∧ vget t.rows q.row = some { row with
        state := .done, past := false, place := none, reason := none
        results := some ⟨f.pn, q.stub, cut, q.faultAfterPaste⟩ } ∧ vget t.sequencers st = none ∧
      OnlyAt q.row s.rows t.rows ∧ OnlyAt st s.sequencers t.sequencers ∧ also t ∧
      OnlyIn [.now, .reels, .rows, .schedules, .sequencers, .bus, .stands, .port] s t := by
  have kept := h.keep before
  rw [modSequencer_some kept.sequencer] at after
  generalize g q = q' at hg hcut after
  have hret : q'.retractEnded = true := by rw [hg]
  have hrow : q'.row = q.row := by rw [hg]
  have done : doneRow q' row f = { row with
      state := .done, past := false, place := none, reason := none
      results := some ⟨f.pn, q.stub, cut, q.faultAfterPaste⟩ } := by rw [hg]; rfl
  have ready : ClosingOrder st q' row f (setSequencer v st (some q')) :=
    ⟨vget_vset_self .., by rw [hg]; exact h.phase, by rw [hrow]; exact kept.order, h.state, h.stand, h.fire⟩
  have rows : t.rows = vset s.rows q.row (some (doneRow q' row f)) := by
    rw [after .rows (by simp), ready.done_rows hcut hret, hrow, setSequencer_rows, before .rows (by simp)]
  have sequencers : t.sequencers = vset s.sequencers st none := by
    rw [after .sequencers (by simp), ready.done_sequencers hcut hret, setSequencer_sequencers, vset_vset,
      before .sequencers (by simp)]
  refine ⟨t, step, ?_, ?_, ?_, ?_, ha, (((before.and_then setSequencer_onlyIn).and_then
    (ready.done_onlyIn hcut hret)).and_then after).mono (by simp)⟩
  · rw [rows, vget_vset_self, done]
  · rw [sequencers, vget_vset_self]
  · rw [rows]
    exact onlyAt_vset
  · rw [sequencers]
    exact onlyAt_vset

end ClosingOrder

/-! ## The five commands -/

/-- The cut part met by the end of the cut wait (R122). -/
def cutWaitOver (q : Sequencer) : Sequencer := { q with cutWait := none }

/-- The cut part met by CUT CONFIRMED (R122). -/
def cutTaken (q : Sequencer) : Sequencer := { q with cutConfirmed := true, cutWait := none }

/-- The retract part met (R123). -/
def retractOver (q : Sequencer) : Sequencer := { q with retractEnded := true, retractWait := none }

theorem cutMet_iff {q : Sequencer} : cutMet q = true ↔ q.cutConfirmed = true ∨ q.cutWait = none := by
  simp [cutMet]

theorem refused_onlyIn {s : State} {st : StandId} {o : LastOutcome} :
    OnlyIn [.now, .bus, .stands, .port] s (writeOutcome st o (freePair s)) :=
  (setBus_onlyIn.and_then writeOutcome_onlyIn).mono (by simp)

section Commands

variable {s : State} {st : StandId} {q : Sequencer} {row : OrderRow} {f : FirePositions} {e : Nat}

theorem exec_cutWaitEnd (h : ClosingOrder st q row f s) (hw : q.cutWait = some e) : exec (.cutWaitEnd st) s =
    .next (arbitrate (tryCloseDone st (modSequencer st cutWaitOver (reachTime e s)))) := by
  change execCutWaitEnd st s = _
  rw [execCutWaitEnd, h.cutEnd_eq, hw]
  rfl

theorem exec_cutConfirmed (h : ClosingOrder st q row f s) (hw : q.cutWait = some e) (hg : granted s st = true) :
    exec (.cutConfirmed st) s =
      .next (arbitrate (endGrant st (tryCloseDone st (modSequencer st cutTaken s)))) := by
  change execCutConfirmed st s = _
  rw [execCutConfirmed, onGrant_granted hg, if_pos (by rw [h.awaitsCut_eq, hw]; rfl)]
  rfl

theorem exec_retractTimeout (h : ClosingOrder st q row f s) (hw : q.retractWait = some e) :
    exec (.retractTimeout st) s = .next (arbitrate (endRetractWait st (reachTime e s))) := by
  change execRetractTimeout st s = _
  rw [execRetractTimeout, h.retractEnd_eq, hw]

/-- A retract wait that ends while retract ended is no is an end of RETRACT (R123). -/
theorem endRetractWait_closes (h : ClosingOrder st q row f s) (hr : q.retractEnded = false) :
    endRetractWait st s =
      tryCloseDone st (modSequencer st retractOver (writeOutcome st .retractTimeout s)) := by
  rw [endRetractWait, if_pos (by rw [h.awaitsRetract_eq, hr]; rfl)]
  rfl

theorem exec_armHome (h : ClosingOrder st q row f s) (hr : q.retractEnded = false) (hg : granted s st = true) :
    exec (.armHome st) s =
      .next (arbitrate (endGrant st (tryCloseDone st (modSequencer st retractOver s)))) := by
  change execArmHome st s = _
  rw [execArmHome, onGrant_granted hg, if_pos (by rw [h.awaitsRetract_eq, hr]; rfl)]
  rfl

theorem exec_refuse_retract {r : Request} {lim : Nat} {why : StandReason} (h : ClosingOrder st q row f s)
    (hr : q.retractEnded = false) (hp : s.bus.pair = .request st r false lim) (hk : r.kind = .retract) :
    exec (.refuse st r.kind r.arm why) s = .next (arbitrate (tryCloseDone st (modSequencer st retractOver
      (writeOutcome st (.retractRefused why) (freePair s))))) := by
  rw [exec_refuse hp, if_neg (by simp), writeRefusal_some (o := .retractRefused why) (by rw [hk]; rfl), refuseRequest,
    hk]
  dsimp only
  rw [if_pos (by rw [(h.keep refused_onlyIn).awaitsRetract_eq, hr]; rfl)]
  rfl

end Commands

section Parts

variable {s t : State} {st : StandId} {g : Sequencer → Sequencer}

theorem reachTime_onlyIn {n : Nat} : OnlyIn [.now] s (reachTime n s) := setNow_onlyIn

/-- What a close of the sequencer's order, and then the bus, leave of the clock and the stands. -/
theorem tryCloseDone_now_stands (ht : OnlyIn [.bus] (tryCloseDone st (modSequencer st g s)) t) :
    t.now = s.now ∧ t.stands = s.stands := by
  have keeps : Keeps s (tryCloseDone st (modSequencer st g s)) := tryCloseDone_keeps (modSequencer_keeps (.refl s))
  exact ⟨(ht .now (by simp)).trans keeps.now, (ht .stands (by simp)).trans (by simp)⟩

/-- The same after a last outcome has been written (R146, R123). -/
theorem written_now_stands {o : LastOutcome}
    (ht : OnlyIn [.bus] (tryCloseDone st (modSequencer st g (writeOutcome st o s))) t) :
    t.now = s.now ∧ vget t.stands st = { vget s.stands st with outcome := o } := by
  obtain ⟨now, stands⟩ := tryCloseDone_now_stands ht
  refine ⟨now.trans (writeOutcome_onlyIn .now (by simp)), ?_⟩
  rw [stands, writeOutcome_stands, vget_vset_self]

theorem endGrant_arbitrate_onlyIn : OnlyIn [.bus] s (arbitrate (endGrant st s)) :=
  (endGrant_onlyIn.and_then (arbitrate_onlyIn _)).mono (by simp)

/-- A message that closes the order ends the grant that it came on (R147). -/
theorem closed_on_grant (s : State) (st : StandId) (g : Sequencer → Sequencer) :
    let t := arbitrate (endGrant st (tryCloseDone st (modSequencer st g s)))
    t.now = s.now ∧ t.stands = s.stands ∧ GrantEnded st s t := by
  have kept : QueuesOnly s (modSequencer st g s) := (QueuesOnly.refl s).of_bus rfl
  obtain ⟨now, stands⟩ := tryCloseDone_now_stands (s := s) (g := g) (st := st) endGrant_arbitrate_onlyIn
  exact ⟨now, stands, (tryCloseDone_queuesOnly kept).grantEnded⟩

end Parts

/-- Settles O33: each command ends one part of the closing while the other is met, and the two met close the
order. -/
theorem closingEndsDone : Obligations.ClosingEndsDone := by
  intro st s q row f e hq hp hr hs hst hf closed ends
  have h : ClosingOrder st q row f s := ⟨hq, hp, hr, hs, hst, hf⟩
  have timed : OnlyIn [.now, .bus, .stands, .port] s (reachTime e s) := reachTime_onlyIn.mono (by simp)
  have retracted : q.cutConfirmed = true ∨ q.cutWait = none → cutMet (retractOver q) = true := cutMet_iff.2
  refine ⟨fun hret hw => ?_, fun hw hc hret => ?_, fun hw hret hg => ?_, fun hret hcut =>
    ⟨fun hw => ?_, fun hg => ?_, fun r lim why hpair hk => ?_⟩⟩
  · have awaits : awaitsRetract (reachTime e s) st = false := by rw [(h.keep timed).awaitsRetract_eq, hret]; rfl
    rw [exec_retractTimeout h hw, endRetractWait_ended _ _ awaits, modSequencer_some (h.keep timed).sequencer]
    rfl
  · refine h.ends timed ?_ ?_ (arbitrate_onlyIn _) (exec_cutWaitEnd h hw)
      (tryCloseDone_now_stands (arbitrate_onlyIn _))
    · rw [cutWaitOver, ← hc, ← hret]
    · simp [cutMet, cutWaitOver]
  · refine h.ends onlyIn_refl ?_ ?_ endGrant_arbitrate_onlyIn (exec_cutConfirmed h hw hg)
      (closed_on_grant s st cutTaken)
    · rw [cutTaken, ← hret]
    · simp [cutMet, cutTaken]
  · have recorded : OnlyIn [.now, .bus, .stands, .port] s (writeOutcome st .retractTimeout (reachTime e s)) :=
      (timed.and_then writeOutcome_onlyIn).mono (by simp)
    exact h.ends recorded rfl (retracted hcut) (arbitrate_onlyIn _)
      (by rw [exec_retractTimeout h hw, endRetractWait_closes (h.keep timed) hret])
      (written_now_stands (arbitrate_onlyIn _))
  · exact h.ends onlyIn_refl rfl (retracted hcut) endGrant_arbitrate_onlyIn (exec_armHome h hret hg)
      (closed_on_grant s st retractOver)
  · have written := written_now_stands (s := freePair s) (st := st) (g := retractOver) (o := .retractRefused why)
      (arbitrate_onlyIn _)
    exact h.ends refused_onlyIn rfl (retracted hcut) (arbitrate_onlyIn _) (exec_refuse_retract h hret hpair hk)
      written

end Sys2Proof.Machine
end

section
/-! The search for a free position, and one entry's placement (R98, R99). -/

namespace Sys2Proof.Machine

open Sys2Proof

/-! ## Offsets from a base -/

section Offsets

variable {gmin : Nat} {base q x y : Pos}

/-- The distance of two positions by their distances from a base. -/
theorem sub_toNat_base (x y base : Pos) :
    (x - y).toNat = ((x - base).toNat + 4294967296 - (y - base).toNat) % 4294967296 := by
  simp only [BitVec.toNat_sub]
  have := x.isLt; have := y.isLt; have := base.isLt
  omega

/-- Within the bounds the blocked interval is the open interval of `gmin` to each side (R98). -/
theorem blocked_iff (hg : gmin ≤ 5000000) (hq : (q - base).toNat < 1073741824) (hx : (x - base).toNat < 1078741824) :
    blocked gmin q x = true ↔
      (q - base).toNat < (x - base).toNat + gmin ∧ (x - base).toNat < (q - base).toNat + gmin := by
  have sum : (x - q + BitVec.ofNat 32 gmin).toNat =
      ((x - base).toNat + 4294967296 - (q - base).toNat + gmin) % 4294967296 := by
    rw [BitVec.toNat_add, sub_toNat_base x q base, BitVec.toNat_ofNat]
    omega
  simp only [blocked, sum, Bool.and_eq_true, decide_eq_true_iff]
  omega

theorem fwd_toNat_base (hg : gmin ≤ 5000000) (hq : (q - base).toNat < 1073741824) :
    (fwd q gmin - base).toNat = (q - base).toNat + gmin := by
  have : (fwd q gmin - base).toNat = ((q - base).toNat + gmin) % 4294967296 := by
    have := q.isLt; have := base.isLt
    simp only [fwd, BitVec.toNat_sub, BitVec.toNat_add, BitVec.toNat_ofNat]
    omega
  omega

end Offsets

/-! ## The search (R98) -/

/-- A position lies in the blocked interval of one of some positions (R98). -/
def Taken (gmin : Nat) (qs : List Pos) (y : Pos) : Prop := ∃ q ∈ qs, blocked gmin q y = true

section Search

variable {gmin : Nat} {base x : Pos} {qs : List Pos}

/-- The blockers that end beyond a position: those that a search from there can still meet. -/
def aheadCount (gmin : Nat) (base : Pos) (qs : List Pos) (x : Pos) : Nat :=
  qs.countP fun q => decide ((x - base).toNat < (q - base).toNat + gmin)

/-- A move past a blocker leaves that blocker behind, and all that were behind. -/
theorem aheadCount_lt {q z : Pos} (hq : q ∈ qs) (hx : (x - base).toNat < (q - base).toNat + gmin)
    (hz : (z - base).toNat = (q - base).toNat + gmin) : aheadCount gmin base qs z < aheadCount gmin base qs x := by
  obtain ⟨as, bs, rfl⟩ := List.append_of_mem hq
  have le : ∀ l : List Pos, aheadCount gmin base l z ≤ aheadCount gmin base l x := fun l =>
    List.countP_mono_left fun p _ hp => by simp only [decide_eq_true_iff] at hp ⊢; omega
  have ha := le as
  have hb := le bs
  simp only [aheadCount, List.countP_append, List.countP_cons, hz, hx, Nat.lt_irrefl, decide_true, decide_false,
    if_true, Bool.false_eq_true, if_false] at ha hb ⊢
  omega

/-- The search ends at the first position that no blocker takes, with a move for each blocker at most. -/
theorem firstFree_first (hg : gmin ≤ 5000000) (hqs : ∀ q ∈ qs, (q - base).toNat < 1073741824) (n : Nat)
    (hn : aheadCount gmin base qs x ≤ n) (hx : (x - base).toNat < 1078741824) :
    let z := firstFree gmin qs n x
    (x - base).toNat ≤ (z - base).toNat ∧ (z - base).toNat < 1078741824 ∧ ¬ Taken gmin qs z ∧
      ∀ y, (x - base).toNat ≤ (y - base).toNat → (y - base).toNat < (z - base).toNat → Taken gmin qs y := by
  induction n generalizing x with
  | zero =>
    refine ⟨Nat.le_refl _, hx, fun ⟨q, hq, hb⟩ => ?_, fun y h1 h2 => absurd h2 (Nat.not_lt.2 h1)⟩
    have behind := List.countP_eq_zero.1 (Nat.le_zero.1 hn) q hq
    exact behind (decide_eq_true ((blocked_iff hg (hqs q hq) hx).1 hb).2)
  | succ n ih =>
    cases hf : qs.find? fun q => blocked gmin q x with
    | none =>
      simp only [firstFree, hf]
      refine ⟨Nat.le_refl _, hx, fun ⟨q, hq, hb⟩ => ?_, fun y h1 h2 => absurd h2 (Nat.not_lt.2 h1)⟩
      exact List.find?_eq_none.1 hf q hq hb
    | some q =>
      simp only [firstFree, hf]
      have hq := List.mem_of_find?_eq_some hf
      have found := List.find?_some (p := fun q => blocked gmin q x) hf
      obtain ⟨below, above⟩ := (blocked_iff hg (hqs q hq) hx).1 found
      have moved := fwd_toNat_base hg (hqs q hq)
      have near := hqs q hq
      obtain ⟨h1, h2, h3, h4⟩ := ih (x := fwd q gmin)
        (Nat.le_of_lt_succ (Nat.lt_of_lt_of_le (aheadCount_lt hq above moved) hn)) (by omega)
      refine ⟨by omega, h2, h3, fun y hxy hyz => ?_⟩
      by_cases hy : (y - base).toNat < (fwd q gmin - base).toNat
      · exact ⟨q, hq, (blocked_iff hg near (by omega)).2 ⟨by omega, by omega⟩⟩
      · exact h4 y (Nat.le_of_not_lt hy) hyz

end Search

/-! ## One entry's placement (R99) -/

section Placement

variable {gmin : Nat} {base : Pos} {qs : List Pos} {e : Entry}

theorem placeEntry_cases (gmin : Nat) (qs : List Pos) (e : Entry) :
    (atOrAfter e.place.plate (firstFree gmin qs qs.length e.place.ppref) = true ∧ placeEntry gmin qs e =
      { e with place := { e.place with q := firstFree gmin qs qs.length e.place.ppref }, spacingShort := false }) ∨
    (atOrAfter e.place.plate (firstFree gmin qs qs.length e.place.ppref) = false ∧ placeEntry gmin qs e =
      { e with place := { e.place with q := e.place.ppref }, spacingShort := true }) := by
  unfold placeEntry
  dsimp only
  split
  · next h => exact .inl ⟨h, rfl⟩
  · next h => exact .inr ⟨by simpa using h, rfl⟩

/-- A placement writes Q and SPACING_SHORT. -/
theorem placeEntry_writes (gmin : Nat) (qs : List Pos) (e : Entry) : placeEntry gmin qs e =
    { e with place := { e.place with q := (placeEntry gmin qs e).place.q }
             spacingShort := (placeEntry gmin qs e).spacingShort } := by
  rcases placeEntry_cases gmin qs e with ⟨-, h⟩ | ⟨-, h⟩ <;> rw [h]

variable (hg : gmin ≤ 5000000) (hp : (e.place.ppref - base).toNat < 1073741824)
  (hqs : ∀ q ∈ qs, (q - base).toNat < 1073741824)

include hg hp hqs

/-- The search from an entry's Ppref. -/
theorem firstFree_ppref : let z := firstFree gmin qs qs.length e.place.ppref
    (e.place.ppref - base).toNat ≤ (z - base).toNat ∧ (z - base).toNat < 1078741824 ∧ ¬ Taken gmin qs z ∧
      ∀ y, (e.place.ppref - base).toNat ≤ (y - base).toNat → (y - base).toNat < (z - base).toNat →
        Taken gmin qs y :=
  firstFree_first hg hqs _ List.countP_le_length (by omega)

theorem placeEntry_free (hs : (placeEntry gmin qs e).spacingShort = false) :
    let q := (placeEntry gmin qs e).place.q
    (q - e.place.ppref).toNat < 2147483648 ∧ (e.place.plate - q).toNat < 2147483648 ∧ ¬ Taken gmin qs q ∧
      ∀ y, (y - e.place.ppref).toNat < (q - e.place.ppref).toNat → Taken gmin qs y := by
  obtain ⟨h1, h2, h3, h4⟩ := firstFree_ppref hg hp hqs
  rcases placeEntry_cases gmin qs e with ⟨h, eq⟩ | ⟨-, eq⟩
  · rw [eq]
    generalize firstFree gmin qs qs.length e.place.ppref = z at h h1 h2 h3 h4
    refine ⟨?_, (atOrAfter_iff ..).1 h, h3, fun y hy => ?_⟩
    · rw [sub_toNat_base z _ base]
      omega
    · rw [sub_toNat_base y _ base, sub_toNat_base z _ base] at hy
      exact h4 y (by omega) (by omega)
  · rw [eq] at hs
    cases hs

theorem placeEntry_short (hs : (placeEntry gmin qs e).spacingShort = true) :
    (placeEntry gmin qs e).place.q = e.place.ppref ∧
      ((e.place.plate - base).toNat < 1073741824 → ∀ y, (y - base).toNat < 1073741824 →
        (y - e.place.ppref).toNat < 2147483648 → (e.place.plate - y).toNat < 2147483648 → Taken gmin qs y) := by
  obtain ⟨h1, h2, -, h4⟩ := firstFree_ppref hg hp hqs
  rcases placeEntry_cases gmin qs e with ⟨-, eq⟩ | ⟨h, eq⟩
  · rw [eq] at hs
    cases hs
  · rw [eq]
    refine ⟨rfl, fun hpl y hy hlo hhi => ?_⟩
    have before := (atOrAfter_eq_false_iff ..).1 h
    rw [sub_toNat_base _ _ base] at before hlo hhi
    exact h4 y (by omega) (by omega)

/-- A placed Q stays within the bound of its Ppref and Plate. -/
theorem placeEntry_near (hpl : (e.place.plate - base).toNat < 1073741824) :
    ((placeEntry gmin qs e).place.q - base).toNat < 1073741824 := by
  obtain ⟨-, h2, -, -⟩ := firstFree_ppref hg hp hqs
  rcases placeEntry_cases gmin qs e with ⟨h, eq⟩ | ⟨-, eq⟩
  · rw [eq]
    have before := (atOrAfter_iff ..).1 h
    rw [sub_toNat_base _ _ base] at before
    dsimp only
    omega
  · rw [eq]
    exact hp

end Placement

end Sys2Proof.Machine
end

section
/-! What an evaluation makes of a line's PLACED entries: their order and their placements (R96 to R101). -/

namespace Sys2Proof.Machine

open Sys2Proof

/-! ## The taking order (R97) -/

theorem offset_eq_toInt (p l : Pos) : offset p l = (p - l).toInt := by
  rw [BitVec.toInt_eq_toNat_cond, offset, distance]
  by_cases h : (p - l).toNat < 2147483648
  · rw [if_pos h, if_pos (by omega)]
  · rw [if_neg h, if_neg (by omega)]
    rfl

/-- The model's sort is the library's insertion sort. -/
theorem sortBy_eq_insertionSort {α : Type} (before : α → α → Bool) (xs : List α) :
    sortBy before xs = xs.insertionSort fun a b => before b a = false := by
  have insert : ∀ x ys, insertSorted before x ys = ys.orderedInsert (fun a b => before b a = false) x := by
    intro x ys
    induction ys with
    | nil => rfl
    | cons y ys ih => cases h : before y x <;> simp [insertSorted, h, ih]
  induction xs with
  | nil => rfl
  | cons x xs ih => exact (insert x _).trans (congrArg _ ih)

theorem takingOrder_perm (l : Pos) (es : List Entry) : (takingOrder l es).Perm es := by
  rw [takingOrder, sortBy_eq_insertionSort]
  exact List.perm_insertionSort ..

/-- An entry is taken before another with a later Plate, and at one Plate in row order (R97). -/
def TakenBefore (l : Pos) (a b : Entry) : Prop :=
  (a.place.plate - l).toInt < (b.place.plate - l).toInt ∨ a.place.plate = b.place.plate ∧ a.row ≤ b.row

theorem takenBefore_iff (l : Pos) (a b : Entry) : TakenBefore l a b ↔
    (a.place.plate - l).toInt < (b.place.plate - l).toInt ∨
      (a.place.plate - l).toInt = (b.place.plate - l).toInt ∧ a.row.val ≤ b.row.val := by
  rw [TakenBefore, BitVec.toInt_inj, sub_left_inj, Fin.le_def]

theorem not_entryBefore_iff (l : Pos) (a b : Entry) :
    entryBefore l (·.place.plate) b a = false ↔ TakenBefore l a b := by
  simp only [entryBefore, offset_eq_toInt, takenBefore_iff, Bool.or_eq_false_iff, Bool.and_eq_false_iff,
    decide_eq_false_iff_not, Fin.lt_def]
  omega

theorem takingOrder_pairwise (l : Pos) (es : List Entry) : (takingOrder l es).Pairwise (TakenBefore l) := by
  have total : Std.Total fun a b => entryBefore l (·.place.plate) b a = false :=
    ⟨fun a b => by simp only [not_entryBefore_iff, takenBefore_iff]; omega⟩
  have trans : IsTrans Entry fun a b => entryBefore l (·.place.plate) b a = false :=
    ⟨fun a b c => by simp only [not_entryBefore_iff, takenBefore_iff]; omega⟩
  rw [takingOrder, sortBy_eq_insertionSort]
  exact (List.pairwise_insertionSort ..).imp (not_entryBefore_iff l _ _).1

/-! ## What an evaluation keeps of an entry -/

/-- What the placement of an entry starts from, and keeps. -/
def Entry.asked (e : Entry) : RowId × StandId × Bool × Pos × Pos :=
  (e.row, e.stand, e.frozen, e.place.ppref, e.place.plate)

/-- The positions an evaluation gives an entry: its tracker's, or its own when the tracker has none (R96). -/
def givenTo (s : State) (e : Entry) : Pos × Pos := (splicePositions s e.stand).getD (e.place.ppref, e.place.plate)

theorem refreshEntry_frozen (s : State) (e : Entry) : (refreshEntry s e).frozen = e.frozen := by
  unfold refreshEntry
  (repeat' split) <;> rfl

theorem refreshEntry_of_frozen {s : State} {e : Entry} (h : e.frozen = true) : refreshEntry s e = e := by
  simp [refreshEntry, h]

theorem refreshEntry_asked {s : State} {e : Entry} (h : e.frozen = false) :
    (refreshEntry s e).asked = (e.row, e.stand, false, (givenTo s e).1, (givenTo s e).2) := by
  cases hp : splicePositions s e.stand <;> simp [refreshEntry, givenTo, Entry.asked, h, hp]

theorem placeEntry_asked (gmin : Nat) (qs : List Pos) (e : Entry) : (placeEntry gmin qs e).asked = e.asked := by
  rw [placeEntry_writes]
  rfl

theorem placeAll_asked (gmin : Nat) (qs : List Pos) (es : List Entry) :
    (placeAll gmin qs es).map Entry.asked = es.map Entry.asked := by
  induction es generalizing qs with
  | nil => rfl
  | cons e es ih => simp only [placeAll, List.map_cons, placeEntry_asked, ih]

theorem withDistance_writes (s : State) (v : Nat) (e : Entry) :
    withDistance s v e = { e with distance := (withDistance s v e).distance } := by
  unfold withDistance
  split <;> rfl

theorem withDistance_asked (s : State) (v : Nat) (e : Entry) : (withDistance s v e).asked = e.asked := by
  rw [withDistance_writes]
  rfl

theorem withDistance_place (s : State) (v : Nat) (e : Entry) : (withDistance s v e).place = e.place := by
  rw [withDistance_writes]

/-- The taking order reads what placement keeps. -/
theorem pairwise_of_asked {l : Pos} {xs ys : List Entry} (h : xs.map Entry.asked = ys.map Entry.asked) :
    xs.Pairwise (TakenBefore l) ↔ ys.Pairwise (TakenBefore l) := by
  have reads : ∀ zs : List Entry, zs.Pairwise (TakenBefore l) ↔ (zs.map Entry.asked).Pairwise fun
      (i, _, _, _, x) (j, _, _, _, y) => (x - l).toInt < (y - l).toInt ∨ x = y ∧ i ≤ j :=
    fun zs => by rw [List.pairwise_map]; rfl
  rw [reads, reads, h]

/-! ## Placements in a list (R97, R99) -/

/-- Each entry stands where it is placed around some positions and the entries before it. -/
def PlacedInTurn (gmin : Nat) (qs : List Pos) (es : List Entry) : Prop :=
  ∀ (i : Nat) (e : Entry), es[i]? = some e → placeEntry gmin (qs ++ (es.take i).map (·.place.q)) e = e

/-- The placement reads nothing that it writes. -/
theorem placeEntry_again (gmin : Nat) (qs : List Pos) (e : Entry) :
    placeEntry gmin qs (placeEntry gmin qs e) = placeEntry gmin qs e := by
  rcases placeEntry_cases gmin qs e with ⟨h, eq⟩ | ⟨h, eq⟩ <;> rw [eq] <;> simp [placeEntry, h]

theorem placeAll_inTurn (gmin : Nat) (qs : List Pos) (es : List Entry) :
    PlacedInTurn gmin qs (placeAll gmin qs es) := by
  induction es generalizing qs with
  | nil => exact fun i e h => by simp [placeAll] at h
  | cons x xs ih =>
    intro i e h
    cases i with
    | zero =>
      obtain rfl : placeEntry gmin qs x = e := by simpa [placeAll] using h
      simpa using placeEntry_again gmin qs x
    | succ i => simpa [placeAll] using ih (qs ++ [(placeEntry gmin qs x).place.q]) i e (by simpa [placeAll] using h)

/-- The commit distance is no part of the placement. -/
theorem placeEntry_withDistance (gmin : Nat) (qs : List Pos) (s : State) (v : Nat) (e : Entry) :
    placeEntry gmin qs (withDistance s v e) = withDistance s v (placeEntry gmin qs e) := by
  have placed : ∀ d, placeEntry gmin qs { e with distance := d } = { placeEntry gmin qs e with distance := d } := by
    intro d
    unfold placeEntry
    dsimp only
    split <;> rfl
  rw [withDistance_writes, placed, placeEntry_writes]
  unfold withDistance
  dsimp only
  split <;> rfl

theorem PlacedInTurn.withDistance {gmin : Nat} {qs : List Pos} {es : List Entry} (h : PlacedInTurn gmin qs es)
    (s : State) (v : Nat) : PlacedInTurn gmin qs (es.map (withDistance s v)) := by
  intro i e he
  obtain ⟨p, hp, rfl⟩ : ∃ p, es[i]? = some p ∧ Machine.withDistance s v p = e := by simpa using he
  have same : ((es.map (Machine.withDistance s v)).take i).map (·.place.q) = (es.take i).map (·.place.q) := by
    simp [← List.map_take, withDistance_place]
  rw [same, placeEntry_withDistance, h i p hp]

section Turns

variable {gmin : Nat} {base : Pos} {qs : List Pos} {es : List Entry}

/-- Entries placed in turn stay within the bound that holds for the positions they start from. -/
theorem PlacedInTurn.near (h : PlacedInTurn gmin qs es) (hg : gmin ≤ 5000000)
    (hqs : ∀ q ∈ qs, (q - base).toNat < 1073741824)
    (hes : ∀ e ∈ es, (e.place.ppref - base).toNat < 1073741824 ∧ (e.place.plate - base).toNat < 1073741824) :
    ∀ q ∈ qs ++ es.map (·.place.q), (q - base).toNat < 1073741824 := by
  have placed : ∀ (i : Nat) (e : Entry), es[i]? = some e → (e.place.q - base).toNat < 1073741824 := by
    intro i
    induction i using Nat.strong_induction_on with
    | _ i ih =>
      intro e he
      obtain ⟨hp, hl⟩ := hes e (List.mem_of_getElem? he)
      rw [← h i e he]
      refine placeEntry_near hg hp (fun q hq => ?_) hl
      obtain hq | ⟨a, ha, rfl⟩ := (List.mem_append.1 hq).imp_right List.mem_map.1
      · exact hqs q hq
      · obtain ⟨j, hj, rfl⟩ := List.mem_take_iff_getElem.1 ha
        exact ih j (by omega) _ (List.getElem?_eq_getElem _)
  intro q hq
  obtain hq | ⟨e, he, rfl⟩ := (List.mem_append.1 hq).imp_right List.mem_map.1
  · exact hqs q hq
  · obtain ⟨i, hi⟩ := List.mem_iff_getElem?.1 he
    exact placed i e hi

/-- An entry placed in turn without SPACING_SHORT blocks none before it and is blocked by none (R99). -/
theorem PlacedInTurn.free (h : PlacedInTurn gmin qs es) (hg : gmin ≤ 5000000)
    (hqs : ∀ q ∈ qs, (q - base).toNat < 1073741824)
    (hes : ∀ e ∈ es, (e.place.ppref - base).toNat < 1073741824 ∧ (e.place.plate - base).toNat < 1073741824)
    {i : Nat} {e : Entry} (he : es[i]? = some e) (hs : e.spacingShort = false) :
    ¬ Taken gmin (qs ++ (es.take i).map (·.place.q)) e.place.q := by
  have turn := h i e he
  have near : ∀ q ∈ qs ++ (es.take i).map (·.place.q), (q - base).toNat < 1073741824 := fun q hq =>
    h.near hg hqs hes q (List.mem_append.2 ((List.mem_append.1 hq).imp_right
      fun hq => (List.map_subset _ (List.take_subset i es)) hq))
  obtain ⟨-, -, free, -⟩ := placeEntry_free hg (hes e (List.mem_of_getElem? he)).1 near (by rw [turn]; exact hs)
  rwa [turn] at free

end Turns

/-- A relation of each entry to all before it, read along a list that starts with others. -/
theorem pairwise_append_of_take {α : Type} {R : α → α → Prop} {as es : List α} (ha : as.Pairwise R)
    (h : ∀ (i : Nat) (b : α), es[i]? = some b → ∀ a ∈ as ++ es.take i, R a b) : (as ++ es).Pairwise R := by
  refine List.pairwise_append.2 ⟨ha, List.pairwise_iff_getElem.2 fun i j hi hj hij => ?_, fun a haa b hb => ?_⟩
  · exact h j _ (List.getElem?_eq_getElem hj) _
      (List.mem_append_right _ (List.mem_take_iff_getElem.2 ⟨i, by omega, rfl⟩))
  · obtain ⟨i, hi⟩ := List.mem_iff_getElem?.1 hb
    exact h i b hi a (List.mem_append_left _ haa)

/-! ## The entries of an evaluation -/

section Evaluation

variable (l : LineId) (s : State)

/-- The FROZEN entries of a line's schedule. -/
def frozenEntries : List Entry := (vget s.schedules l).filter (·.frozen)

theorem frozenEntries_of_fresh :
    ((vget s.schedules l).map (refreshEntry s)).filter (·.frozen) = frozenEntries l s := by
  have kinds : (Entry.frozen ∘ refreshEntry s) = Entry.frozen := funext (refreshEntry_frozen s)
  rw [List.filter_map, frozenEntries, kinds]
  exact (List.map_congr_left fun e he => refreshEntry_of_frozen (List.mem_filter.1 he).2).trans (List.map_id' _)

/-- An evaluation's PLACED entries, as the tracker positions leave them (R96). -/
def freshEntries : List Entry := ((vget s.schedules l).filter (!·.frozen)).map (refreshEntry s)

theorem placedEntries_eq : placedEntries l s =
    (placeAll (spacingSteps s l) ((frozenEntries l s).map (·.place.q))
      (takingOrder (vget s.lines l).position (freshEntries l s))).map (withDistance s (vget s.lines l).speed) := by
  have kinds : ((fun e : Entry => !e.frozen) ∘ refreshEntry s) = fun e : Entry => !e.frozen :=
    funext fun e => congrArg not (refreshEntry_frozen s e)
  have fresh : ((vget s.schedules l).map (refreshEntry s)).filter (!·.frozen) = freshEntries l s := by
    rw [List.filter_map, kinds, freshEntries]
  unfold placedEntries
  dsimp only
  rw [frozenEntries_of_fresh, fresh]
  rfl

theorem placedEntries_asked : (placedEntries l s).map Entry.asked =
    (takingOrder (vget s.lines l).position (freshEntries l s)).map Entry.asked := by
  rw [placedEntries_eq, List.map_map, ← placeAll_asked]
  exact List.map_congr_left fun e _ => withDistance_asked ..

theorem placedEntries_perm : ((placedEntries l s).map Entry.asked).Perm
    (((vget s.schedules l).filter (!·.frozen)).map fun e =>
      (e.row, e.stand, false, (givenTo s e).1, (givenTo s e).2)) := by
  rw [placedEntries_asked]
  refine ((takingOrder_perm ..).map _).trans (.of_eq ?_)
  rw [freshEntries, List.map_map]
  exact List.map_congr_left fun e he => refreshEntry_asked (by simpa using (List.mem_filter.1 he).2)

theorem placedEntries_pairwise : (placedEntries l s).Pairwise (TakenBefore (vget s.lines l).position) :=
  (pairwise_of_asked (placedEntries_asked l s)).2 (takingOrder_pairwise ..)

theorem placedEntries_inTurn : PlacedInTurn (spacingSteps s l) ((frozenEntries l s).map (·.place.q))
    (placedEntries l s) := by
  rw [placedEntries_eq]
  exact PlacedInTurn.withDistance (placeAll_inTurn _ _ _) _ _

variable {l s} in
theorem placedEntries_distance {e : Entry} {row : OrderRow} (he : e ∈ placedEntries l s)
    (hr : vget s.rows e.row = some row) : e.distance =
      commitDistance (vget s.lines l).speed (standParam s e.stand 3) (newReelOutside s row) := by
  rw [placedEntries_eq] at he
  obtain ⟨p, -, rfl⟩ := List.mem_map.1 he
  rw [withDistance_writes] at hr ⊢
  simp only at hr
  simp [withDistance, hr]

variable {l s} in
/-- A placed entry is one of the schedule, with the positions given to it. -/
theorem placedEntries_given {e : Entry} (he : e ∈ placedEntries l s) : e.frozen = false ∧
    ∃ m ∈ vget s.schedules l, m.frozen = false ∧ (e.place.ppref, e.place.plate) = givenTo s m := by
  obtain ⟨m, hm, eq⟩ := List.mem_map.1 ((placedEntries_perm l s).subset (List.mem_map_of_mem he))
  obtain ⟨hm, hf⟩ := List.mem_filter.1 hm
  simp only [Entry.asked, Prod.mk.injEq] at eq
  obtain ⟨-, -, frozen, ppref, plate⟩ := eq
  exact ⟨frozen.symm, m, hm, by simpa using hf, by rw [← ppref, ← plate]⟩

/-- Along the FROZEN entries and those placed, none without SPACING_SHORT is blocked by one before it (R99). -/
theorem placedEntries_spaced {base : Pos} (hg : spacingSteps s l ≤ 5000000)
    (hz : ∀ e ∈ frozenEntries l s, (e.place.q - base).toNat < 1073741824)
    (hm : ∀ e ∈ vget s.schedules l, e.frozen = false →
      ((givenTo s e).1 - base).toNat < 1073741824 ∧ ((givenTo s e).2 - base).toNat < 1073741824) :
    (frozenEntries l s ++ placedEntries l s).Pairwise fun a b => b.frozen = false → b.spacingShort = false →
      ¬ blocked (spacingSteps s l) a.place.q b.place.q = true := by
  have near : ∀ e ∈ placedEntries l s,
      (e.place.ppref - base).toNat < 1073741824 ∧ (e.place.plate - base).toNat < 1073741824 := by
    intro e he
    obtain ⟨-, m, mem, hf, given⟩ := placedEntries_given he
    simpa [← given] using hm m mem hf
  have blockers : ∀ q ∈ (frozenEntries l s).map (·.place.q), (q - base).toNat < 1073741824 := by
    simpa using hz
  refine pairwise_append_of_take (List.pairwise_of_forall_mem_list fun a _ b hb hf => ?_)
    fun i b hb a ha _ hs hbl => ?_
  · exact absurd (List.mem_filter.1 hb).2 (by simp [hf])
  · refine (placedEntries_inTurn l s).free hg blockers near hb hs ⟨a.place.q, ?_, hbl⟩
    rw [← List.map_append]
    exact List.mem_map_of_mem ha

end Evaluation

end Sys2Proof.Machine
end

section
/-! What the hand-off of an evaluation does to the lines' flags, and to the rows when no commit point is reached
(R73, R100). -/

namespace Sys2Proof.Machine

open Sys2Proof

/-! ## The lines' flags -/

/-- The flags of the lines, which stand above those of the rows, stay as they are (R184). -/
structure LineFlagsKept (s t : State) : Prop where
  flag : ∀ n, 24 ≤ n → flagSet t n = flagSet s n

namespace LineFlagsKept

variable {s t u : State}

theorem refl (s : State) : LineFlagsKept s s := ⟨fun _ _ => rfl⟩

theorem trans (h : LineFlagsKept s t) (k : LineFlagsKept t u) : LineFlagsKept s u :=
  ⟨fun n hn => (k.flag n hn).trans (h.flag n hn)⟩

theorem of_port (h : t.port = s.port) : LineFlagsKept s t := ⟨fun n _ => by rw [flagSet, flagSet, h]⟩

/-- A row's flag is none of a line. -/
theorem raiseRow (h : LineFlagsKept s t) (r : RowId) (st : StandId) : LineFlagsKept s (raiseRow r st t) := by
  refine h.trans ⟨fun n hn => ?_⟩
  unfold Machine.raiseRow raiseBit
  split
  · have low : (1#28 <<< (8 + r.val)).getLsbD n = false := by
      rw [BitVec.getLsbD_shiftLeft, BitVec.getLsbD_one]
      simp only [Bool.and_eq_false_iff, decide_eq_false_iff_not, Bool.not_eq_false', decide_eq_true_iff]
      omega
    simp [flagSet, rowBit, low]
  · rfl

end LineFlagsKept

theorem closeRow_lineFlags (r : RowId) (o : OrderState) (why : Option OrderReason) (d : Option DoneResults)
    (b : Bool) (s : State) : LineFlagsKept s (closeRow r o why d b s).1 := by
  cases e : vget s.rows r with
  | none => rw [closeRow_none _ _ _ _ e]; exact .refl s
  | some row =>
    cases ho : row.state.isOpen with
    | false => rw [closeRow_not_open _ _ _ _ e ho]; exact .refl s
    | true =>
      have released : (releaseOrderOf r row o why d b s).port = s.port := by
        unfold releaseOrderOf; dsimp only; (repeat' split) <;> simp
      rw [closeRow_open _ _ _ _ e ho]
      split
      · exact (LineFlagsKept.of_port (by rw [removeEntry_port, released])).raiseRow ..
      · exact (LineFlagsKept.of_port released).raiseRow ..

theorem commitRow_lineFlags (r : RowId) (row : OrderRow) (p : Placement) (a : Nat) (b : Bool) (s : State) :
    LineFlagsKept s (commitRow r row p a b s).1 := by
  refine LineFlagsKept.raiseRow (.of_port ?_) ..
  simp

theorem commitTest_lineFlags (r : RowId) (s : State) : LineFlagsKept s (commitTest r s).1 := by
  unfold commitTest
  split
  · exact .refl s
  · dsimp only
    split
    · split
      · split
        · exact closeRow_lineFlags ..
        · dsimp only
          split
          · exact .of_port rfl
          · exact (LineFlagsKept.of_port (setRow_port ..)).raiseRow ..
      · split
        · split
          · exact closeRow_lineFlags ..
          · exact .of_port rfl
        · exact commitRow_lineFlags ..
    · exact .refl s

theorem latestReport_lineFlags (r : RowId) (s : State) : LineFlagsKept s (latestReport r s).1 := by
  unfold latestReport
  split
  · exact .refl s
  · split
    · exact closeRow_lineFlags ..
    · exact closeRow_lineFlags ..
    · exact commitTest_lineFlags r s
    · exact .refl s

theorem handOff_lineFlags (l : LineId) (acc : State × Nat) (e : Entry) :
    LineFlagsKept acc.1 (handOff l acc e).1 := by
  unfold handOff
  dsimp only
  split
  · exact .refl _
  · next row hr =>
    split
    · exact .refl _
    · have placed : LineFlagsKept acc.1 (if (row.state == .held &&
          (placedRow (position acc.1 l) e row).state == .armed) = true
          then raiseRow e.row row.stand (setRow acc.1 e.row (some (placedRow (position acc.1 l) e row)))
          else setRow acc.1 e.row (some (placedRow (position acc.1 l) e row))) := by
        split
        · exact (LineFlagsKept.of_port (setRow_port ..)).raiseRow ..
        · exact .of_port rfl
      split
      · exact placed.trans (commitTest_lineFlags ..)
      · split
        · exact placed.trans (latestReport_lineFlags ..)
        · exact placed

section Evaluation

variable (l : LineId) (s : State)

/-- The state an evaluation hands its entries off in: the schedule written, and the line's flag raised when an
entry is newly short (R100). -/
def scheduled : State :=
  let t := setSchedule s l (frozenEntries l s ++ placedEntries l s)
  if newlyShort (vget s.schedules l) (placedEntries l s) then raiseLine l t else t

theorem evalOnce_eq : evalOnce l s = (placedEntries l s).foldl (handOff l) (scheduled l s, 0) := rfl

theorem flagSet_raiseLine (t : State) :
    flagSet (raiseLine l t) (24 + l.val) = (flagSet t (24 + l.val) || lineEnabled t l) := by
  unfold raiseLine raiseBit
  split
  · next h =>
    rw [h, Bool.or_true]
    exact flagSet_raiseBit t (n := lineBit l) (by simp only [lineBit]; omega)
  · next h => rw [Bool.eq_false_iff.2 h, Bool.or_false]

theorem newlyShort_iff (before after : List Entry) : newlyShort before after = true ↔
    ∃ e ∈ after, e.spacingShort = true ∧ ∃ b ∈ before, b.row = e.row ∧ b.spacingShort = false := by
  simp [newlyShort]

/-- The flag of an evaluated line (R100). -/
theorem evalOnce_flag : flagSet (evalOnce l s).1 (24 + l.val) = true ↔ flagSet s (24 + l.val) = true ∨
    (lineParam s l 3 = 1 ∧ newlyShort (vget s.schedules l) (placedEntries l s) = true) := by
  have kept : LineFlagsKept (scheduled l s) (evalOnce l s).1 := by
    rw [evalOnce_eq]
    exact foldl_inv (P := fun acc : State × Nat => LineFlagsKept (scheduled l s) acc.1) _ _
      (fun acc e _ h => h.trans (handOff_lineFlags l acc e)) (.refl _)
  have enabled : ∀ x, lineEnabled (setSchedule s l x) l = true ↔ lineParam s l 3 = 1 := fun x => beq_iff_eq
  have flag : ∀ x, flagSet (setSchedule s l x) (24 + l.val) = flagSet s (24 + l.val) := fun x => rfl
  rw [kept.flag _ (by omega)]
  unfold scheduled
  dsimp only
  split
  · next h => simp [flagSet_raiseLine, enabled, flag, h]
  · next h => simp [flag, h]

end Evaluation

/-! ## The hand-off with every commit point ahead (R73) -/

/-- Neither the commit point nor the latest commit point of an entry is reached. -/
def PointsAhead (now : Pos) (e : Entry) : Prop :=
  atOrAfter now (back e.place.q e.distance) = false ∧ atOrAfter now (back e.place.plate e.distance) = false

/-- What a waiting row holds once an entry with its commit points ahead is handed to it. -/
def aheadRow (e : Entry) (row : OrderRow) : OrderRow :=
  { row with
    state := .armed, past := false, place := some e.place, distance := some e.distance
    spacingShort := e.spacingShort, speedLow := row.speedLow && !row.past }

/-- Handing the same values off again changes nothing. -/
theorem aheadRow_again (e : Entry) (row : OrderRow) : aheadRow e (aheadRow e row) = aheadRow e row := by
  simp [aheadRow]

theorem placedRow_ahead {now : Pos} {e : Entry} (h : atOrAfter now (back e.place.q e.distance) = false)
    (row : OrderRow) : placedRow now e row = aheadRow e row := by
  cases hp : row.past <;> simp [placedRow, aheadRow, h, hp]

/-- The row an entry names, after the hand-off of the entry with its commit points ahead. -/
def handedRow (e : Entry) (x : Option OrderRow) : Option OrderRow :=
  x.map fun row => if row.state.waiting then aheadRow e row else row

/-- A hand-off with the commit points ahead writes the entry's row, and perhaps its flag, and causes no
evaluation. -/
theorem handOff_of_ahead {l : LineId} {s : State} {n : Nat} {e : Entry}
    (h : PointsAhead (vget s.lines l).position e) :
    ∃ p, handOff l (s, n) e =
      ({ s with rows := vset s.rows e.row (handedRow e (vget s.rows e.row)), port := p }, n) := by
  obtain ⟨hq, hl⟩ := h
  change atOrAfter (position s l) _ = false at hq hl
  cases hr : vget s.rows e.row with
  | none =>
    refine ⟨s.port, ?_⟩
    rw [handedRow, Option.map_none, ← hr, vset_vget_self]
    simp [handOff, hr]
  | some row =>
    cases hw : row.state.waiting with
    | false =>
      refine ⟨s.port, ?_⟩
      have kept : handedRow e (some row) = vget s.rows e.row := by simp [handedRow, hw, hr]
      rw [kept, vset_vget_self]
      simp [handOff, hr, hw]
    | true =>
      have handed : handedRow e (some row) = some (aheadRow e row) := by simp [handedRow, hw]
      simp only [handOff, hr, hw, placedRow_ahead hq, hq, hl, handed, raiseRow_eq]
      cases hh : row.state == .held
      · exact ⟨s.port, rfl⟩
      · exact ⟨_, rfl⟩

/-- The hand-offs of entries with their commit points ahead write rows and flags alone. -/
theorem handOffs_of_ahead {l : LineId} {es : List Entry} {s : State} {n : Nat}
    (h : ∀ e ∈ es, PointsAhead (vget s.lines l).position e) :
    ∃ p, es.foldl (handOff l) (s, n) =
      ({ s with
        rows := es.foldl (fun rows e => vset rows e.row (handedRow e (vget rows e.row))) s.rows, port := p }, n) := by
  induction es generalizing s with
  | nil => exact ⟨s.port, rfl⟩
  | cons e es ih =>
    obtain ⟨p, hp⟩ := handOff_of_ahead (n := n) (h e List.mem_cons_self)
    rw [List.foldl_cons, List.foldl_cons, hp]
    exact ih fun x hx => h x (List.mem_cons_of_mem _ hx)

/-- The row of an entry that no other entry shares, after all hand-offs. -/
theorem handedRows_row {e : Entry} {row : OrderRow} (hw : row.state.waiting = true) {es : List Entry}
    {rows : Vector (Option OrderRow) 16} (only : ∀ x ∈ es, x.row = e.row → x = e)
    (h : vget rows e.row = some (aheadRow e row) ∨ vget rows e.row = some row ∧ e ∈ es) :
    vget (es.foldl (fun rows e => vset rows e.row (handedRow e (vget rows e.row))) rows) e.row =
      some (aheadRow e row) := by
  induction es generalizing rows with
  | nil => exact h.resolve_right fun ⟨_, hm⟩ => List.not_mem_nil hm
  | cons x xs ih =>
    refine ih (fun y hy => only y (List.mem_cons_of_mem _ hy)) ?_
    by_cases hx : x.row = e.row
    · obtain rfl := only x List.mem_cons_self hx
      left
      rw [vget_vset_self]
      obtain h | ⟨h, -⟩ := h
      · have waits : (aheadRow x row).state.waiting = true := rfl
        rw [h, handedRow, Option.map_some, if_pos waits, aheadRow_again]
      · rw [h, handedRow, Option.map_some, if_pos hw]
    · rw [vget_vset_ne _ _ _ _ (Ne.symm hx)]
      refine h.imp_right fun ⟨h, hm⟩ => ⟨h, (List.mem_cons.1 hm).resolve_left ?_⟩
      rintro rfl
      exact hx rfl

section Ahead

variable {l : LineId} {s : State}

variable (l s) in
theorem scheduled_eq : ∃ p, scheduled l s =
    { s with schedules := vset s.schedules l (frozenEntries l s ++ placedEntries l s), port := p } := by
  unfold scheduled raiseLine raiseBit
  dsimp only
  (repeat' split) <;> exact ⟨_, rfl⟩

/-- An evaluation with every commit point ahead writes the schedule, the rows and flags, and causes none. -/
theorem evalOnce_of_ahead (h : ∀ e ∈ placedEntries l s, PointsAhead (vget s.lines l).position e) :
    ∃ p, evalOnce l s = ({ s with
      schedules := vset s.schedules l (frozenEntries l s ++ placedEntries l s)
      rows := (placedEntries l s).foldl (fun rows e => vset rows e.row (handedRow e (vget rows e.row))) s.rows
      port := p }, 0) := by
  obtain ⟨q, hs⟩ := scheduled_eq l s
  obtain ⟨p, hp⟩ := handOffs_of_ahead (l := l) (es := placedEntries l s) (s := scheduled l s) (n := 0)
    (by rw [hs]; exact h)
  refine ⟨p, ?_⟩
  rw [evalOnce_eq, hp, hs]

/-- An evaluation that causes none is the last (R104). -/
theorem evaluate_of_no_cause (h : (evalOnce l s).2 = 0) : evaluate l s = (evalOnce l s).1 := by
  rw [evaluate, settle, Nat.add_comm]
  simp only [evalRounds, h]
  cases placedCount s l <;> rfl

end Ahead

end Sys2Proof.Machine
end

section
/-! The placement of a line's waiting orders: the parts assembled (R73, R96 to R101). -/

namespace Sys2Proof.Machine

open Sys2Proof

/-- The blocked interval as the statement writes it (R98). -/
theorem blocked_eq_true (gmin : Nat) (q y : Pos) : blocked gmin q y = true ↔
    0 < (y - q + BitVec.ofNat 32 gmin).toNat ∧ (y - q + BitVec.ofNat 32 gmin).toNat < 2 * gmin := by
  simp [blocked]

/-- Settles O25: the search meets each blocker once, an evaluation places its entries in turn, and its hand-off
writes the rows alone when every commit point is ahead. -/
theorem placementKeepsSpacing : Obligations.PlacementKeepsSpacing := by
  refine ⟨fun gmin qs e base hg hp hqs => ?_, fun l s => ?_⟩
  · simp only [← blocked_eq_true]
    exact ⟨placeEntry_writes gmin qs e, placeEntry_free hg hp hqs, placeEntry_short hg hp hqs⟩
  · simp only [← blocked_eq_true, ← atOrAfter_eq_false_iff]
    refine ⟨placedEntries_perm l s, placedEntries_pairwise l s, fun i e he => ?_, ?_, ?_, ?_, ?_⟩
    · rw [List.map_append]
      exact placedEntries_inTurn l s i e he
    · intro e he row new c hr hn hc
      rw [placedEntries_distance he hr, newReelOutside_eq hn hc, commitDistance]
    · exact fun base hg hz hm => placedEntries_spaced l s hg hz hm
    · rw [evalOnce_flag, newlyShort_iff]
    · intro ahead
      obtain ⟨p, once⟩ := evalOnce_of_ahead ahead
      have last := evaluate_of_no_cause (l := l) (s := s) (by rw [once])
      refine ⟨last, ?_, fun e he only row hr hw => ?_⟩
      · rw [last, once]
        exact vget_vset_self ..
      · rw [last, once]
        exact handedRows_row hw only (.inr ⟨hr, he⟩)

end Sys2Proof.Machine
end

section
/-! The fire positions, and two reports of the sequencer: the match deadline and the paste (R111, R117 to R119). -/

namespace Sys2Proof.Machine

open Sys2Proof

/-! ## The fire positions (R118) -/

/-- The revolutions added are the fewest that keep the guard of 200 (R118). -/
theorem revolutionsAdded_le_iff {dn c lead k : Nat} (hc : 0 < c) :
    revolutionsAdded dn c lead ≤ k ↔ lead + 200 ≤ dn + k * c := by
  rw [revolutionsAdded, pasteGuard, ← Nat.ceilDiv_eq_add_pred_div, ceilDiv_le_iff_le_mul hc,
    Nat.sub_le_iff_le_add', Nat.mul_comm]

/-- Settles O30: the added revolutions are the ceiling of what the guard lacks, over the circumference. -/
theorem firePositionsFromTape : Obligations.FirePositionsFromTape := by
  intro pt c v fz hc f dn lead
  refine ⟨(revolutionsAdded_le_iff hc).1 le_rfl, fun j hj => ?_, rfl, rfl, rfl, rfl⟩
  exact Nat.lt_of_not_le (mt (revolutionsAdded_le_iff hc).2 (Nat.not_le_of_lt hj))

/-! ## The match deadline (R111) -/

section Deadline

variable {s : State} {st : StandId} {q : Sequencer} {row : OrderRow} {c : Commitment}

/-- A reached deadline in ACCELERATING is reported by the close of the order (R2, R111). -/
theorem exec_matchDeadline (hq : vget s.sequencers st = some q) (hp : q.phase = .accelerating)
    (hr : vget s.rows q.row = some row) (hc : row.commitment = some c)
    (hd : atOrAfter (standPos s st) c.deadline = true) : exec (.matchDeadlineReport st) s =
      .next (arbitrate (closeOrder q.row .failed .accelTimeout false s)) := by
  have due : deadlineDue s st = true := by simp [deadlineDue, deadlineReached, hq, hp, hr, hc, hd]
  change execMatchDeadlineReport st s = _
  rw [execMatchDeadlineReport, reportDeadline, hq, due]
  rfl

end Deadline

/-- Settles O28: the report is the close of the order from a committed state. -/
theorem matchDeadlineCloses : Obligations.MatchDeadlineCloses := by
  intro st s q row c hq hp hr hs hst hc hd
  have ho : row.state.isOpen = true := by rw [hs]; rfl
  obtain ⟨closed, -, only⟩ := closeOrder_closed (o := .failed) (why := .accelTimeout) hr ho rfl rfl
  refine ⟨_, exec_matchDeadline hq hp hr hc ((atOrAfter_iff ..).2 hd), closed, fun hz => ?_, only⟩
  rw [arbitrate_sequencers]
  exact (closeOrder_aborts hr hst (.inl hs) hz).1

/-! ## The paste (R119) -/

section Paste

variable {s : State} {st : StandId} {q : Sequencer} {row : OrderRow} {f : FirePositions} {c : Commitment}

/-- A reached Pp in PASTING before the paste is reported by the paste (R2, R119). -/
theorem exec_pastePosition (hq : vget s.sequencers st = some q) (hp : q.phase = .pasting)
    (hf : q.pasteFired = false) (hr : vget s.rows q.row = some row) (hfire : row.fire = some f)
    (hd : atOrAfter (standPos s st) f.pp = true) :
    exec (.pastePositionReport st) s = .next (arbitrate (firePaste st s)) := by
  have due : pasteDue s st = true := by simp [pasteDue, fireOf, hq, hp, hf, hr, hfire, hd]
  change execPastePositionReport st s = _
  rw [execPastePositionReport, reportPaste, if_pos due]

/-- With Pk ahead the paste asserts PASTE and crosses the paste boundary (R12, R119). -/
theorem firePaste_ahead (hq : vget s.sequencers st = some q) (hr : vget s.rows q.row = some row)
    (hfire : row.fire = some f) (hc : row.commitment = some c)
    (hk : atOrAfter (standPos s st) f.pk = false) : firePaste st s =
      setSequencer (fireOutput st .paste c.frozen.pulseWidth s) st (some { q with pasteFired := true }) := by
  have ahead : atOrAfter (standPos (setSequencer (fireOutput st .paste c.frozen.pulseWidth s) st
      (some { q with pasteFired := true })) st) f.pk = false := hk
  simp [firePaste, hq, hr, hfire, hc, ahead]

end Paste

/-- Settles O31: the report is the paste alone, and nothing waits on the pair. -/
theorem pasteFires : Obligations.PasteFires := by
  intro st s q row f c hn hq hp hf hr hfire hc hpp hpk
  rw [exec_pastePosition hq hp hf hr hfire ((atOrAfter_iff ..).2 hpp),
    firePaste_ahead hq hr hfire hc ((atOrAfter_eq_false_iff ..).2 hpk), arbitrate_eq_self (by exact hn)]
  cases h : (vget s.outputs st).paste <;> simp [fireOutput, firePulse, h, setSequencer, setOutputs]

end Sys2Proof.Machine
end

section
/-! The console's commands on a stand (R155, R160, R163, R168). -/

namespace Sys2Proof.Machine

open Sys2Proof

/-! ## INDEX STAND (R160) -/

section IndexStand

variable {s : State} {st : StandId} {p : List Byte}

theorem indexStandBody_badValue (h : item p 0 1 = 0 ∨ 8 < item p 0 1) :
    indexStandBody p s = reply .badValue s := by
  simp only [indexStandBody, standOf_eq_none h]

/-- The tests of INDEX STAND on the stand it names. -/
theorem indexStandBody_stand (hi : item p 0 1 = st.val + 1) : indexStandBody p s =
    if !isOnline s st then reply .standNotOnline s
    else if (openRow s st).isSome then reply .standBusy s
    else if indexInProgress s st || (vget s.verifies st).isSome then reply .wrongState s
    else ok [] (queueRequest st (plainRequest .index none) s) := by
  simp only [indexStandBody, hi, standOf_val]

end IndexStand

/-! ## CLEAR STAND (R168) -/

section ClearStand

variable {s u : State} {st : StandId} {p : List Byte}

theorem clearStandBody_badValue (h : item p 0 1 = 0 ∨ 8 < item p 0 1) :
    clearStandBody p s = reply .badValue s := by
  simp only [clearStandBody, standOf_eq_none h]

theorem clearStandBody_stand (hi : item p 0 1 = st.val + 1) : clearStandBody p s =
    if flagSet s st.val || SlotReading.stopHeld (vget s.bus.slots st) then reply .wrongState s
    else ok [] (settleCondition st (clearContexts st s)) := by
  simp only [clearStandBody, hi, standOf_val, standBit]
  rfl

/-- A stand context that CLEAR STAND has emptied, in a condition (R168 step 1). -/
def clearedContext (c : Condition) (x : StandContext) : StandContext :=
  { x with condition := c, errors := noErrors, misses := 0, stopHold := none }

/-- The controller without what it holds for a stand (R168 step 2). -/
def clearedBus (st : StandId) (b : Bus) : Bus := { b with
  queues := vset b.queues st [], reads := vset b.reads st []
  indexes := vset b.indexes st none, lapses := vset b.lapses st 0
  pair := abandonIf st (fun _ => true) b.pair }

/-- CLEAR STAND's steps 1 to 3 in one write of each part. -/
theorem clearContexts_eq (st : StandId) (s : State) : clearContexts st s = { s with
    stands := vset s.stands st (clearedContext (vget s.stands st).condition (vget s.stands st))
    bus := clearedBus st s.bus
    verifies := vset s.verifies st none } := rfl

theorem clearContexts_onlyIn : OnlyIn [.stands, .bus, .verifies] s (clearContexts st s) := by
  intro b hb
  cases b
  case stands | bus | verifies => simp at hb
  all_goals rfl

theorem raiseStand_eq (st : StandId) (s : State) : raiseStand st s = { s with port := raisedPort s st } := by
  unfold raiseStand raiseBit raisedPort standEnabled standBit
  split <;> rfl

/-- The entry to ONLINE in one write of each part (R155). -/
theorem goOnline_eq (st : StandId) (r : SlotReading) (s : State) : goOnline st r s = { s with
    stands := vset s.stands st { vget s.stands st with
      condition := .online, misses := 0
      stopHold := if SlotReading.stopHeld r then some (s.now + 3000) else none }
    bus := queuedBus s.bus st ⟨.status, none, none, none⟩
    port := raisedPort s st } := raiseStand_eq ..

/-- Step 4 with PRESENT, and no STOP_HELD, as the refusals have tested (R155). -/
theorem settleCondition_present (hp : SlotReading.present (vget s.bus.slots st) = true)
    (hh : SlotReading.stopHeld (vget s.bus.slots st) = false) :
    settleCondition st (clearContexts st s) = { s with
      stands := vset s.stands st (clearedContext .online (vget s.stands st))
      bus := queuedBus (clearedBus st s.bus) st ⟨.status, none, none, none⟩
      verifies := vset s.verifies st none
      port := raisedPort s st } := by
  have present : SlotReading.present (vget (clearContexts st s).bus.slots st) = true := hp
  have online : settleCondition st (clearContexts st s) =
      goOnline st (vget s.bus.slots st) (clearContexts st s) := if_pos present
  rw [online, goOnline_eq, hh, clearContexts_eq]
  simp [clearedContext, vset_vset]
  rfl

/-- Step 4 without PRESENT, on a stand that was not ONLINE. -/
theorem settleCondition_absent (hp : SlotReading.present (vget s.bus.slots st) = false)
    (hc : (vget s.stands st).condition ≠ .online) :
    settleCondition st (clearContexts st s) = { s with
      stands := vset s.stands st (clearedContext .offline (vget s.stands st))
      bus := clearedBus st s.bus
      verifies := vset s.verifies st none
      port := if (vget s.stands st).condition = .offline then s.port else raisedPort s st } := by
  have absent : SlotReading.present (vget (clearContexts st s).bus.slots st) = false := hp
  have was : (vget (clearContexts st s).stands st).condition = (vget s.stands st).condition := by
    simp [clearContexts_eq, clearedContext]
  simp only [settleCondition, absent, was]
  cases h : (vget s.stands st).condition with
  | online => exact absurd h hc
  | offline =>
    simp [clearContexts_eq, modStand, setStand, clearedContext, vset_vset]
  | fault | lockedOut =>
    simp [raiseStand_eq, clearContexts_eq, modStand, setStand, clearedContext, vset_vset]
    rfl

/-- A stand that was ONLINE leaves service by CLEAR STAND as it does by a fault (R163, R168). -/
theorem settleCondition_leaves (hp : SlotReading.present (vget s.bus.slots st) = false)
    (hc : (vget s.stands st).condition = .online) :
    settleCondition st (clearContexts st s) =
      leaveService st .offline .standFault (clearContexts st s) := by
  have absent : SlotReading.present (vget (clearContexts st s).bus.slots st) = false := hp
  have was : (vget (clearContexts st s).stands st).condition = .online := by
    rw [← hc]; simp [clearContexts_eq, clearedContext]
  have idle : ∀ u : State, vget u.verifies st = none → endRun st u = u := fun u h => by simp [endRun, h]
  have stopped : modStand st (fun x => { x with condition := .offline, stopHold := none }) (clearContexts st s) =
      modStand st (fun x => { x with condition := .offline }) (clearContexts st s) := by
    simp [modStand, clearContexts_eq, clearedContext]
  rw [leaveService, stopped, idle]
  · simp [settleCondition, absent, was]
  · simp [clearContexts_eq]

theorem raisedPort_run (s : State) (st : StandId) : (raisedPort s st).run = s.port.run := by
  unfold raisedPort
  split <;> rfl

/-- An answer ends a parameter run, whether the frame has ended it before or not. -/
theorem answering_raised_endParamRun (s : State) (st : StandId) (code : Byte) (x : Status) (items : List Byte) :
    answering (raisedPort (endParamRun s) st) code x items = answering (raisedPort s st) code x items := by
  have enabled : standParam (endParamRun s) st 13 = standParam s st 13 := rfl
  unfold raisedPort
  rw [enabled]
  split <;> rfl

/-- An answer leaves what a stand has met. -/
theorem StandsAs.answered (u : State) (code : Byte) (x : Status) (items : List Byte) :
    StandsAs u { u with port := answering u.port code x items } := ⟨rfl, rfl, rfl, rfl, rfl, rfl, .refl _⟩

theorem leaveService_onlyIn {c : Condition} {why : OrderReason} :
    OnlyIn [.reels, .verifies, .rows, .schedules, .sequencers, .bus, .stands, .port] s (leaveService st c why s) := by
  have down : OnlyIn [.stands, .port, .bus, .verifies] s (standDown st c s) :=
    ((setStand_onlyIn.and_then raiseStand_onlyIn).and_then endRun_onlyIn).mono (by simp)
  have order : Keeps (standDown st c s) (leaveService st c why s) := faultOrder_keeps (.refl _)
  exact (down.and_then (order.onlyIn_orders (by simp [leaveService_eq]) (by simp [leaveService_eq])
    (by simp [leaveService_eq]))).mono (by simp)

theorem leaveService_run {c : Condition} {why : OrderReason} :
    (leaveService st c why s).port.run = s.port.run := by
  have order : Keeps (standDown st c s) (leaveService st c why s) := faultOrder_keeps (.refl _)
  rw [order.run]
  simp [standDown, raiseStand_eq, raisedPort_run]

/-- CLEAR STAND of a stand that was ONLINE and is not PRESENT: it leaves service as OFFLINE, whatever is then
answered (R163, R168). -/
theorem clearStand_leaves (code : Byte) (x : Status) (items : List Byte)
    (hu : u = leaveService st .offline .standFault (clearContexts st (endParamRun s))) :
    let t := arbitrate { u with port := answering u.port code x items }
    LeftService st .offline .standFault s t ∧
      t.stands = vset s.stands st (clearedContext .offline (vget s.stands st)) ∧
      OnlyIn [.reels, .verifies, .rows, .schedules, .sequencers, .bus, .stands, .port] s t := by
  have same : SameOrders s (clearContexts st (endParamRun s)) := ⟨rfl, rfl, rfl, rfl⟩
  have cleared : OnlyIn [.stands, .bus, .verifies, .port] s (clearContexts st (endParamRun s)) :=
    ((endParamRun_onlyIn s).and_then clearContexts_onlyIn).mono (by simp)
  subst hu
  refine ⟨leaveService_left same (.of_reels rfl) (by simp) (by simp) (.answered ..), ?_, ?_⟩
  · rw [arbitrate_stands, leaveService_stand]
    simp [clearContexts_eq, clearedContext, vset_vset, endParamRun]
  · exact (((cleared.and_then leaveService_onlyIn).and_then setPort_onlyIn).and_then (arbitrate_onlyIn _)).mono
      (by simp)

end ClearStand

/-- Settles O56: each command is one branch of its body, and the stand that was ONLINE leaves service. -/
theorem standCommands : Obligations.StandCommands := by
  intro ad p s had hp bad
  have refuses (code : Byte) (body : State → State × Reply) (x : Status) (hw : NothingWaits s)
      (hb : body (endParamRun s) = reply x (endParamRun s)) :
      answerAndSend .plain ad code (withLength 1 p body) s = bad code x := answerAndSend_refuses had hp hw hb
  refine ⟨fun h hw => ⟨refuses 0x20 _ _ hw (indexStandBody_badValue h),
    refuses 0x21 _ _ hw (clearStandBody_badValue h)⟩, fun st hi => ?_⟩
  have index := indexStandBody_stand (s := endParamRun s) hi
  have clear := clearStandBody_stand (s := endParamRun s) hi
  have online : isOnline (endParamRun s) st = isOnline s st := rfl
  have opened : openRow (endParamRun s) st = openRow s st := rfl
  have progress : indexInProgress (endParamRun s) st = indexInProgress s st := rfl
  have verifies : (endParamRun s).verifies = s.verifies := rfl
  have flag : flagSet (endParamRun s) st.val = flagSet s st.val := rfl
  have slots : (endParamRun s).bus = s.bus := rfl
  rw [online, opened, progress, verifies] at index
  rw [flag, slots] at clear
  refine ⟨fun hc hw => ?_, fun hc ho hw => ?_, fun hc ho hb hw => ?_, fun hc ho hb hv => ?_, fun hr hw => ?_,
    fun hf hh => ?_⟩
  · exact refuses _ _ _ hw (index.trans (by simp [isOnline, hc]))
  · have busy : (openRow s st).isSome = true := Option.isSome_iff_ne_none.2 ho
    exact refuses _ _ _ hw (index.trans (by simp [isOnline, hc, busy]))
  · have inUse : (indexInProgress s st || (vget s.verifies st).isSome) = true := by
      simpa [Option.isSome_iff_ne_none] using hb
    exact refuses _ _ _ hw (index.trans (by simp [isOnline, hc, ho, inUse]))
  · have queued : indexStandBody p (endParamRun s) =
        ok [] (queueRequest st (plainRequest .index none) (endParamRun s)) :=
      index.trans (by simp [isOnline, hc, ho, hb, hv])
    refine (answerAndSend_answers had hp queued rfl).trans ?_
    rfl
  · have refused : (flagSet s st.val || SlotReading.stopHeld (vget s.bus.slots st)) = true := by
      simpa [SlotReading.stopHeld] using hr
    exact refuses _ _ _ hw (clear.trans (if_pos refused))
  · intro x none6 cleared
    have accepted : (flagSet s st.val || SlotReading.stopHeld (vget s.bus.slots st)) = false := by
      simpa [SlotReading.stopHeld] using ⟨hf, hh⟩
    rw [accepted, if_neg (by simp)] at clear
    refine ⟨fun hpr => ?_, fun hpr => ⟨fun hc => ?_, fun hc => ?_⟩⟩
    · rw [settleCondition_present (s := endParamRun s) hpr hh] at clear
      refine (answerAndSend_answers had hp clear (raisedPort_run ..)).trans ?_
      rw [answering_raised_endParamRun]
      rfl
    · rw [settleCondition_absent (s := endParamRun s) hpr hc] at clear
      by_cases off : x.condition = .offline
      · have off' : (vget (endParamRun s).stands st).condition = .offline := off
        rw [if_pos off'] at clear
        rw [if_pos off]
        refine (answerAndSend_answers had hp clear rfl).trans ?_
        rfl
      · have off' : (vget (endParamRun s).stands st).condition ≠ .offline := off
        rw [if_neg off'] at clear
        rw [if_neg off]
        refine (answerAndSend_answers had hp clear (raisedPort_run ..)).trans ?_
        rw [answering_raised_endParamRun]
        rfl
    · rw [settleCondition_leaves (s := endParamRun s) hpr hc] at clear
      obtain ⟨left, stands, only⟩ := clearStand_leaves (s := s) (st := st) 0x21 .ok [] rfl
      obtain ⟨-, -, ended, raised⟩ := left.out
      refine ⟨_, answerAndSend_answers had hp clear leaveService_run, ?_, ?_, ended, raised, left.order, left.reel,
        ?_, only⟩
      · rw [stands, vget_vset_self]
        rfl
      · rw [stands]
        exact onlyAt_vset
      · rw [arbitrate_port]
        rfl

end Sys2Proof.Machine
end

section
/-! The reading of a stand at a scan's end: what it leaves of the other stands (R133, R155, R156). -/

namespace Sys2Proof.Machine

open Sys2Proof

/-! ## A STATUS that waits (R138, R155) -/

section Status

variable {s u : State} {st k : StandId} {x r : Request} {q : List Request}

/-- A request stays in the queue when one that does not take its place is placed. -/
theorem mem_placeRequest_of_differs (hd : sameRequest r x = false) (h : x ∈ q) : x ∈ placeRequest r q := by
  unfold placeRequest
  split
  · exact List.mem_append_left _ (List.mem_filter.2 ⟨h, by simp [hd]⟩)
  · split
    · exact List.mem_map.2 ⟨x, h, by simp [hd]⟩
    · exact List.mem_append_left _ h

/-- STATUS waits in a stand's queue. -/
def StatusWaits (st : StandId) (s : State) : Prop := plainRequest .status none ∈ vget s.bus.queues st

theorem StatusWaits.of_bus (h : StatusWaits st s) (hu : u.bus = s.bus) : StatusWaits st u := by
  unfold StatusWaits; rw [hu]; exact h

/-- Another kind of request takes no STATUS's place. -/
theorem StatusWaits.queueRequest (hr : r.kind ≠ .status) (h : StatusWaits st s) :
    StatusWaits st (queueRequest k r s) := by
  have differs : sameRequest r (plainRequest .status none) = false := by
    simp [sameRequest, plainRequest, hr, isDrive]
  simp only [StatusWaits, Machine.queueRequest, setBus_bus, vget_vset]
  split
  · next e => exact mem_placeRequest_of_differs differs (e ▸ h)
  · exact h

theorem StatusWaits.releaseOrderOf {i : RowId} {row : OrderRow} {o : OrderState} {why : Option OrderReason}
    {d : Option DoneResults} {b : Bool} (h : StatusWaits st s) :
    StatusWaits st (releaseOrderOf i row o why d b s) := by
  have coast : StatusWaits st (coastUnlessLost row b (setRow s i (some (closedRow row o why d)))) := by
    unfold coastUnlessLost
    split
    · exact h
    · exact StatusWaits.queueRequest (s := setRow s i _) (by simp [plainRequest]) h
  have abort : StatusWaits st (if abortable s row = true then
      abortReturn row why (coastUnlessLost row b (setRow s i (some (closedRow row o why d))))
      else setRow s i (some (closedRow row o why d))) := by
    split
    · exact mem_abortReturn (by simp [plainRequest]) coast
    · exact h
  unfold Machine.releaseOrderOf
  refine StatusWaits.of_bus ?_ (untagOrder_bus ..)
  split
  · exact abort
  · exact abort

theorem StatusWaits.closeRow {i : RowId} {o : OrderState} {why : Option OrderReason}
    {d : Option DoneResults} {b : Bool} (h : StatusWaits st s) : StatusWaits st (closeRow i o why d b s).1 := by
  cases e : vget s.rows i with
  | none => rw [closeRow_none _ _ _ _ e]; exact h
  | some row =>
    cases ho : row.state.isOpen with
    | false => rw [closeRow_not_open _ _ _ _ e ho]; exact h
    | true => exact h.releaseOrderOf.of_bus (closeRow_bus _ _ _ _ e ho)

theorem statusWaits_evalClosed (st : StandId) : EvalClosed (StatusWaits st) where
  schedule _ _ _ h := h
  flag u e n h := h.of_bus (raiseBit_bus e n u)
  row _ _ _ _ _ _ _ _ h := h
  close _ _ _ _ _ _ _ _ _ h := h.closeRow
  commit u r x p n b _ _ _ h := by
    refine StatusWaits.of_bus (h.queueRequest (k := x.stand) (r := accelRequest x.newArm
      (newReelOutside u x)) (by simp [accelRequest])) ?_
    simp [commitRow, Machine.queueRequest]

theorem StatusWaits.closeOrder {i : RowId} {o : OrderState} {why : OrderReason} {b : Bool}
    (h : StatusWaits st s) : StatusWaits st (closeOrder i o why b s) :=
  (statusWaits_evalClosed st).settle _ _ h.closeRow

end Status

/-! ## The parts of a reading (R156, R164) -/

section Reading

variable {u : State} {x : StandId} {r : SlotReading}

theorem takeReading_not_offline (hc : (vget u.stands x).condition ≠ .offline) :
    takeReading x r u = readStopHeld x r (readUnsafe x r (readPresent x r u)) :=
  if_neg (by simpa using hc)

theorem takeReading_offline (hc : (vget u.stands x).condition = .offline) : takeReading x r u =
    if SlotReading.present r && !SlotReading.standUnsafe r then goOnline x r u else u :=
  if_pos (by simpa using hc)

theorem readUnsafe_safe (h : SlotReading.standUnsafe r = false) : readUnsafe x r u = u := by
  simp [readUnsafe, h]

theorem readUnsafe_shown (h : SlotReading.standUnsafe r = true) :
    readUnsafe x r u = takeHardError x .standUnsafe u := if_pos h

/-- A stand's context with a count of missed readings. -/
def withMisses (x : StandId) (n : Nat) (u : State) : State :=
  setStand u x { vget u.stands x with misses := n }

theorem readPresent_present (h : SlotReading.present r = true) : readPresent x r u = withMisses x 0 u := if_pos h

theorem readPresent_missed (h : SlotReading.present r = false) (hl : (vget u.stands x).errors.lost = false)
    (hm : (vget u.stands x).misses < 2) :
    readPresent x r u = withMisses x ((vget u.stands x).misses + 1) u := by
  have few : (vget u.stands x).misses + 1 < 3 := by omega
  simp [readPresent, h, hl, few, withMisses]

theorem readPresent_third (h : SlotReading.present r = false) (hl : (vget u.stands x).errors.lost = false)
    (hm : 2 ≤ (vget u.stands x).misses) :
    readPresent x r u = takeHardError x .lost (withMisses x 0 u) := by
  have third : ¬ (vget u.stands x).misses + 1 < 3 := by omega
  simp [readPresent, h, hl, third, withMisses]

/-- PRESENT counts a missed reading or none, or the third one gives LOST (R156). -/
theorem readPresent_cases (x : StandId) (r : SlotReading) (u : State) :
    (∃ n, readPresent x r u = withMisses x n u) ∨ readPresent x r u = takeHardError x .lost (withMisses x 0 u) := by
  unfold readPresent
  dsimp only
  split
  · exact .inl ⟨0, rfl⟩
  · split
    · exact .inl ⟨0, rfl⟩
    · split
      · exact .inl ⟨_, rfl⟩
      · exact .inr rfl

theorem readStopHeld_not_online (h : (vget u.stands x).condition ≠ .online) : readStopHeld x r u = u :=
  if_neg (by simpa using h)

/-- STOP_HELD starts the timer of an ONLINE stand, lets it run on, or stops it (R164). -/
theorem readStopHeld_online (h : (vget u.stands x).condition = .online) :
    readStopHeld x r u = setStand u x { vget u.stands x with
      stopHold := if SlotReading.present r && SlotReading.stopHeld r
        then some ((vget u.stands x).stopHold.getD (u.now + 3000)) else none } := by
  unfold readStopHeld
  dsimp only
  rw [if_pos (by simpa using h)]
  split
  · split
    · next e he =>
      have same : { vget u.stands x with stopHold := some ((vget u.stands x).stopHold.getD (u.now + 3000)) } =
          vget u.stands x := by rw [he, Option.getD_some, ← he]
      rw [same, setStand, vset_vget_self]
    · next he => rw [he]; rfl
  · rfl

/-- A reading without UNSAFE that gives an ONLINE stand no hard error writes its context alone. -/
theorem takeReading_safe {n : Nat} (hs : SlotReading.standUnsafe r = false)
    (hc : (vget u.stands x).condition = .online) (hp : readPresent x r u = withMisses x n u) :
    takeReading x r u = setStand u x { vget u.stands x with
      misses := n
      stopHold := if SlotReading.present r && SlotReading.stopHeld r
        then some ((vget u.stands x).stopHold.getD (u.now + 3000)) else none } := by
  have online : (vget (withMisses x n u).stands x).condition = .online := by simpa [withMisses] using hc
  rw [takeReading_not_offline (by rw [hc]; simp), hp, readUnsafe_safe hs, readStopHeld_online online]
  simp [withMisses, setStand, vset_vset]

end Reading

/-! ## A reading in its steps -/

section Steps

variable {s t u v : State} {st x : StandId} {r : SlotReading} {e : HardError} {why : OrderReason}

/-- The order of a stand that leaves service goes on, or closes. -/
theorem faultOrder_cases (x : StandId) (why : OrderReason) (s : State) :
    faultOrder x why s = s ∨ faultOrder x why s = markFaultAfterPaste x s ∨
      ∃ i, faultOrder x why s = closeOrder i .failed why true s := by
  cases h : openRow s x with
  | none => exact .inl (by simp [faultOrder, h])
  | some i =>
    cases hr : vget s.rows i with
    | none => exact .inl (by simp [faultOrder, h, hr])
    | some row =>
      by_cases hp : pastBoundary s x row
      · exact .inr (.inl (faultOrder_past h hr hp))
      · exact .inr (.inr ⟨i, faultOrder_before h hr hp⟩)

theorem faultOrder_no_order (h : openRow s x = none) : faultOrder x why s = s := by simp [faultOrder, h]

/-- A reading makes a stand ONLINE, or writes its context in its condition and gives it hard errors: what these
keep leads to what the reading leaves. -/
theorem takeReading_steps {P Q : State → Prop} (h : P u) (done : ∀ v, P v → Q v)
    (context : ∀ v c, c.condition = (vget v.stands x).condition → P v → P (setStand v x c))
    (online : Q (goOnline x r u)) (error : ∀ v e, P v → P (takeHardError x e v)) :
    Q (takeReading x r u) := by
  have present : ∀ v, P v → P (readPresent x r v) := by
    intro v hv
    unfold readPresent
    dsimp only
    split
    · exact context _ _ rfl hv
    · split
      · exact context _ _ rfl hv
      · split
        · exact context _ _ rfl hv
        · exact error _ _ (context _ _ rfl hv)
  have afterUnsafe : ∀ v, P v → P (readUnsafe x r v) := by
    intro v hv
    unfold readUnsafe
    split
    · exact error _ _ hv
    · exact hv
  have stop : ∀ v, P v → P (readStopHeld x r v) := by
    intro v hv
    unfold readStopHeld
    dsimp only
    split
    · split
      · split
        · exact hv
        · exact context _ _ rfl hv
      · exact context _ _ rfl hv
    · exact hv
  unfold takeReading
  split
  · split
    · exact online
    · exact done _ h
  · exact done _ (stop _ (afterUnsafe _ (present _ h)))

theorem takeReading_queuesOnly : QueuesOnly u (takeReading x r u) :=
  takeReading_steps (.refl u) (fun _ h => h) (fun _ _ _ h => h)
    (by rw [goOnline_eq]; exact queueRequest_queuesOnly (.refl u)) fun _ _ => takeHardError_queuesOnly

end Steps

/-! ## What the reading of a stand leaves of another -/

/-- What is done at other stands without an order: the parts it reaches, and all that they hold of a stand. -/
structure Elsewhere (st : StandId) (u v : State) : Prop where
  only : OnlyIn [.verifies, .bus, .stands, .port] u v
  stand : vget v.stands st = vget u.stands st
  run : vget v.verifies st = vget u.verifies st
  queue : vget v.bus.queues st = vget u.bus.queues st

/-- What the readings of other stands leave of a stand: its context, its run unless it is ONLINE, its STATUS. -/
structure StandLeft (st : StandId) (u v : State) : Prop where
  stand : vget v.stands st = vget u.stands st
  run : isOnline u st = false → vget v.verifies st = vget u.verifies st
  status : StatusWaits st u → StatusWaits st v

section Others

variable {s t u v : State} {st x : StandId} {r : SlotReading} {e : HardError} {why : OrderReason}

theorem Elsewhere.refl (st : StandId) (u : State) : Elsewhere st u u := ⟨onlyIn_refl, rfl, rfl, rfl⟩

theorem Elsewhere.trans (h : Elsewhere st s t) (k : Elsewhere st t u) : Elsewhere st s u :=
  ⟨h.only.trans k.only, k.stand.trans h.stand, k.run.trans h.run, k.queue.trans h.queue⟩

theorem StandLeft.refl (st : StandId) (u : State) : StandLeft st u u := ⟨rfl, fun _ => rfl, id⟩

theorem StandLeft.trans (h : StandLeft st s t) (k : StandLeft st t u) : StandLeft st s u := by
  refine ⟨k.stand.trans h.stand, fun ho => (k.run ?_).trans (h.run ho), k.status ∘ h.status⟩
  rw [isOnline, h.stand]
  exact ho

theorem Elsewhere.standLeft (h : Elsewhere st u v) : StandLeft st u v :=
  ⟨h.stand, fun _ => h.run, fun hw => by rw [StatusWaits, h.queue]; exact hw⟩

theorem setStand_elsewhere (hx : st ≠ x) (u : State) (c : StandContext) : Elsewhere st u (setStand u x c) :=
  ⟨setStand_onlyIn.mono (by simp), vget_vset_ne _ _ _ _ hx, rfl, rfl⟩

theorem raiseStand_elsewhere (st x : StandId) (u : State) : Elsewhere st u (raiseStand x u) :=
  ⟨raiseStand_onlyIn.mono (by simp), by simp, by simp, by simp⟩

theorem goOnline_elsewhere (hx : st ≠ x) (r : SlotReading) (u : State) : Elsewhere st u (goOnline x r u) := by
  have queued : ∀ v, Elsewhere st v (queueRequest x (plainRequest .status none) v) := fun v =>
    ⟨setBus_onlyIn.mono (by simp), rfl, rfl, vget_vset_ne _ _ _ _ hx⟩
  exact ((setStand_elsewhere hx u _).trans (queued _)).trans (raiseStand_elsewhere st x _)

theorem endRun_elsewhere (hx : st ≠ x) (u : State) : Elsewhere st u (endRun x u) := by
  refine ⟨endRun_onlyIn.mono (by simp), by simp, ?_, ?_⟩
  · rw [endRun_verifies, vget_vset_ne _ _ _ _ hx]
  · unfold endRun
    split
    · exact vget_vset_ne _ _ _ _ hx
    · rfl

/-- A stand taken out of service, before its order is acted on. -/
theorem leftService_elsewhere (hx : st ≠ x) (e : HardError) (u : State) :
    Elsewhere st u (leftService x e u) :=
  (((setStand_elsewhere hx u _).trans (setStand_elsewhere hx _ _)).trans
    (raiseStand_elsewhere st x _)).trans (endRun_elsewhere hx _)

/-- A further hard error of a stand that is in FAULT or LOCKED_OUT already. -/
theorem takeHardError_held (hc : (vget u.stands x).condition ≠ .online) : takeHardError x e u = u ∨
    takeHardError x e u = raiseStand x (setStand u x { vget u.stands x with
      errors := addError e (vget u.stands x).errors }) := by
  cases h : (vget u.stands x).condition with
  | online => exact absurd h hc
  | offline => exact .inl (by simp [takeHardError, h])
  | fault | lockedOut =>
    simp only [takeHardError, h]
    split
    · exact .inl rfl
    · exact .inr rfl

/-- A hard error acts on no order of a stand that is not ONLINE, or has none. -/
theorem takeHardError_elsewhere (hx : st ≠ x)
    (quiet : (vget u.stands x).condition = .online → openRow u x = none) :
    Elsewhere st u (takeHardError x e u) := by
  by_cases hc : (vget u.stands x).condition = .online
  · have none : openRow (leftService x e u) x = none :=
      (leftService_sameOrders e).openRow_eq.trans (quiet hc)
    rw [takeHardError_online e hc, faultOrder_no_order none]
    exact leftService_elsewhere hx e u
  · rcases takeHardError_held (e := e) hc with h | h <;> rw [h]
    · exact .refl st u
    · exact (setStand_elsewhere hx u _).trans (raiseStand_elsewhere st x _)

theorem takeHardError_not_online : (vget (takeHardError x e u).stands x).condition ≠ .online := by
  by_cases hc : (vget u.stands x).condition = .online
  · rw [takeHardError_stand hc]
    simp
  · rcases takeHardError_held (e := e) hc with h | h <;> rw [h]
    · exact hc
    · simpa using hc

/-- The order that another stand's fault closes, and the evaluations that follow, leave a stand. -/
theorem faultOrder_standLeft : StandLeft st u (faultOrder x why u) := by
  rcases faultOrder_cases x why u with h | h | ⟨i, h⟩ <;> rw [h]
  · exact .refl st u
  · exact ⟨rfl, fun _ => rfl, id⟩
  · exact ⟨by rw [closeOrder_stands], closeOrder_verifies_offline, .closeOrder⟩

theorem takeHardError_standLeft (hx : st ≠ x) : StandLeft st u (takeHardError x e u) := by
  by_cases hc : (vget u.stands x).condition = .online
  · rw [takeHardError_online e hc]
    exact (leftService_elsewhere hx e u).standLeft.trans faultOrder_standLeft
  · exact (takeHardError_elsewhere hx fun h => absurd h hc).standLeft

theorem takeReading_standLeft (hx : st ≠ x) : StandLeft st u (takeReading x r u) :=
  takeReading_steps (.refl st u) (fun _ h => h)
    (fun v c _ h => h.trans (setStand_elsewhere hx v c).standLeft)
    (goOnline_elsewhere hx r u).standLeft fun _ _ h => h.trans (takeHardError_standLeft hx)

/-! ## Readings that act on no order -/

/-- A reading does not take an ONLINE stand with an open order out of service. -/
def Calm (x : StandId) (r : SlotReading) (u : State) : Prop :=
  (vget u.stands x).condition = .online → openRow u x ≠ none →
    SlotReading.present r = true ∧ SlotReading.standUnsafe r = false

/-- No order is opened. -/
theorem Keeps.openRow_none {s t : State} (k : Keeps s t) (h : openRow s x = none) : openRow t x = none := by
  cases ht : openRow t x with
  | none => rfl
  | some i =>
    have found := List.find?_some ht
    cases hi : vget t.rows i with
    | none => simp [hi] at found
    | some y =>
      obtain ⟨hst, ho⟩ := openRow_some ht hi
      obtain ⟨z, hz, hzs, hzo⟩ := open_before k hi ho
      rw [Machine.openRow_none h hz (hzs.trans hst)] at hzo
      cases hzo

/-- What leaves the stand, and opens no order, leaves its reading calm. -/
theorem Calm.later (h : Calm x r u) (hs : vget v.stands x = vget u.stands x) (k : Keeps u v) : Calm x r v :=
  fun ho hr => h (hs ▸ ho) fun none => hr (k.openRow_none none)

theorem takeReading_elsewhere (hx : st ≠ x) (calm : Calm x r u) : Elsewhere st u (takeReading x r u) := by
  by_cases busy : (vget u.stands x).condition = .online ∧ openRow u x ≠ none
  · obtain ⟨hp, hs⟩ := calm busy.1 busy.2
    rw [takeReading_safe hs busy.1 (readPresent_present hp)]
    exact setStand_elsewhere hx u _
  · have quiet : (vget u.stands x).condition = .online → openRow u x = none := fun ho => by
      by_contra hr
      exact busy ⟨ho, hr⟩
    refine takeReading_steps (P := fun v => Elsewhere st u v ∧
      ((vget v.stands x).condition = .online → openRow v x = none)) ⟨.refl st u, quiet⟩ (fun _ h => h.1) ?_
      (goOnline_elsewhere hx r u) ?_
    · rintro v c hc ⟨h, hv⟩
      exact ⟨h.trans (setStand_elsewhere hx v c), fun ho => hv (by rw [← hc]; simpa using ho)⟩
    · rintro v e ⟨h, hv⟩
      exact ⟨h.trans (takeHardError_elsewhere hx hv), fun ho => absurd ho takeHardError_not_online⟩

end Others

end Sys2Proof.Machine
end

section
/-! A scan's end: each stand's reading among the readings of the others, and what the scan leaves (R133 to R136,
R155, R156, R162 to R164). -/

namespace Sys2Proof.Machine

open Sys2Proof

/-! ## A stand made FAULT by its reading (R129, R156, R163) -/

/-- What follows at a stand that is out of service leaves it so, with LOST as it is and no flag lowered. -/
structure StaysOut (st : StandId) (u v : State) : Prop where
  condition : (vget v.stands st).condition = (vget u.stands st).condition
  stopHold : (vget v.stands st).stopHold = (vget u.stands st).stopHold
  lost : (vget v.stands st).errors.lost = (vget u.stands st).errors.lost
  run : vget u.verifies st = none → vget v.verifies st = none
  flags : FlagsKept u.port.flags v.port.flags

/-- What follows leaves the orders, the records and a stand's queue. -/
structure OrderStays (st : StandId) (u v : State) : Prop where
  rows : v.rows = u.rows
  sequencers : v.sequencers = u.sequencers
  reels : v.reels = u.reels
  queue : vget v.bus.queues st = vget u.bus.queues st

section Faults

variable {s t u v w : State} {st : StandId} {r : SlotReading} {e : HardError} {c : Condition} {why : OrderReason}

theorem StaysOut.refl (st : StandId) (u : State) : StaysOut st u u := ⟨rfl, rfl, rfl, id, .refl _⟩

theorem StaysOut.trans (h : StaysOut st s t) (k : StaysOut st t u) : StaysOut st s u :=
  ⟨k.condition.trans h.condition, k.stopHold.trans h.stopHold, k.lost.trans h.lost, k.run ∘ h.run,
    fun i hi => k.flags i (h.flags i hi)⟩

theorem OrderStays.refl (st : StandId) (u : State) : OrderStays st u u := ⟨rfl, rfl, rfl, rfl⟩

theorem OrderStays.trans (h : OrderStays st s t) (k : OrderStays st t u) : OrderStays st s u :=
  ⟨k.rows.trans h.rows, k.sequencers.trans h.sequencers, k.reels.trans h.reels, k.queue.trans h.queue⟩

theorem StandLeft.staysOut (h : StandLeft st u v) (k : Keeps u v)
    (hc : (vget u.stands st).condition ≠ .online) : StaysOut st u v :=
  ⟨by rw [h.stand], by rw [h.stand], by rw [h.stand],
    fun idle => (h.run (by simpa [isOnline] using hc)).trans idle, k.flags⟩

theorem StaysOut.ofEndGrant (h : StaysOut st u v) : StaysOut st (endGrant st u) v :=
  ⟨h.condition, h.stopHold, h.lost, h.run, h.flags⟩

theorem OrderStays.ofEndGrant (h : OrderStays st u v) : OrderStays st (endGrant st u) v :=
  ⟨h.rows, h.sequencers, h.reels, h.queue⟩

theorem Elsewhere.orderStays (h : Elsewhere st u v) : OrderStays st u v :=
  ⟨h.only .rows (by simp), h.only .sequencers (by simp), h.only .reels (by simp), h.queue⟩

theorem Elsewhere.sameOrders (h : Elsewhere st u v) : SameOrders u v :=
  ⟨h.only .rows (by simp), h.only .schedules (by simp), h.only .sequencers (by simp), h.only .settings (by simp)⟩

theorem OutOfService.stays (h : OutOfService st c s (arbitrate u)) (k : StaysOut st u v) :
    OutOfService st c s (arbitrate v) := by
  obtain ⟨condition, stopHold, run, flag⟩ := h
  simp only [arbitrate_stands, arbitrate_verifies] at condition stopHold run
  refine ⟨?_, ?_, ?_, fun he => ?_⟩
  · rw [arbitrate_stands, k.condition, condition]
  · rw [arbitrate_stands, k.stopHold, stopHold]
  · rw [arbitrate_verifies, k.run run]
  · have raised := flag he
    rw [flagSet, arbitrate_port] at raised ⊢
    exact k.flags _ raised

theorem OrderFaulted.stays (h : OrderFaulted st why s (arbitrate u)) (hf : u.bus.pair = .free)
    (k : StaysOut st u v) (o : OrderStays st u v) : OrderFaulted st why s (arbitrate v) := by
  intro i row ho hr
  obtain ⟨before, past⟩ := h i row ho hr
  simp only [arbitrate_rows, arbitrate_sequencers, arbitrate_stands] at before past ⊢
  rw [o.rows, o.sequencers, k.lost]
  refine ⟨fun hp => ?_, past⟩
  obtain ⟨closed, raised, alone⟩ := before hp
  refine ⟨closed, fun he => ?_, fun hw hz => ⟨(alone hw hz).1, fun hl => asked_arbitrate ?_⟩⟩
  · have := raised he
    rw [flagSet, arbitrate_port] at this ⊢
    exact k.flags _ this
  · rw [o.queue]
    exact (arbitrate_asked_iff hf).1 ((alone hw hz).2 hl)

/-- UNSAFE of a stand that has left service is held besides, and does nothing more (R162). -/
theorem takeHardError_again (hc : (vget u.stands st).condition ≠ .online) :
    StaysOut st u (takeHardError st .standUnsafe u) ∧ OrderStays st u (takeHardError st .standUnsafe u) := by
  rcases takeHardError_held (e := .standUnsafe) hc with h | h <;> rw [h]
  · exact ⟨.refl st u, .refl st u⟩
  · exact ⟨⟨by simp, by simp, by simp [addError], by simp,
      (raiseStand_keeps (st := st) (.refl (setStand u st _))).flags⟩,
      ⟨by simp, by simp, by simp, by simp⟩⟩

theorem takeHardError_holds (hc : (vget u.stands st).condition ≠ .offline) :
    holdsError (vget (takeHardError st e u).stands st).errors e = true := by
  have added : ∀ x, holdsError (addError e x) e = true := fun x => by cases e <;> rfl
  cases h : (vget u.stands st).condition with
  | offline => exact absurd h hc
  | online => rw [takeHardError_stand h]; exact added _
  | fault | lockedOut =>
    simp only [takeHardError, h]
    split
    · assumption
    · simpa using added _

/-- A reading makes a stand FAULT: it has taken a hard error, and no more has been done that it shows. -/
def ReadingFaults (st : StandId) (u v : State) : Prop :=
  ∃ e n, StaysOut st (takeHardError st e (withMisses st n u)) v ∧
    OrderStays st (takeHardError st e (withMisses st n u)) v

theorem ReadingFaults.not_online (h : ReadingFaults st u v) : (vget v.stands st).condition ≠ .online := by
  obtain ⟨e, n, out, -⟩ := h
  rw [out.condition]
  exact takeHardError_not_online

variable (hc : (vget u.stands st).condition = .online)

include hc

theorem withMisses_online (n : Nat) : (vget (withMisses st n u).stands st).condition = .online := by
  simpa [withMisses] using hc

/-- UNSAFE, or the third reading in a row without PRESENT, makes an ONLINE stand FAULT (R156, R162). -/
theorem takeReading_faults (h : SlotReading.standUnsafe r = true ∨
    readPresent st r u = takeHardError st .lost (withMisses st 0 u)) :
    ReadingFaults st u (takeReading st r u) := by
  rw [takeReading_not_offline (by rw [hc]; simp)]
  cases hs : SlotReading.standUnsafe r with
  | true =>
    rw [readUnsafe_shown hs, readStopHeld_not_online takeHardError_not_online]
    rcases readPresent_cases st r u with ⟨n, hp⟩ | hp <;> rw [hp]
    · exact ⟨.standUnsafe, n, .refl _ _, .refl _ _⟩
    · exact ⟨.lost, 0, takeHardError_again takeHardError_not_online⟩
  | false =>
    have third := h.resolve_left (by simp [hs])
    rw [readUnsafe_safe hs, third, readStopHeld_not_online takeHardError_not_online]
    exact ⟨.lost, 0, .refl _ _, .refl _ _⟩

theorem takeReading_holds (hs : SlotReading.standUnsafe r = true) :
    (vget (takeReading st r u).stands st).errors.standUnsafe = true := by
  have inService : (vget (readPresent st r u).stands st).condition ≠ .offline := by
    rcases readPresent_cases st r u with ⟨n, hp⟩ | hp <;> rw [hp]
    · rw [withMisses_online hc]; simp
    · rw [takeHardError_stand (withMisses_online hc 0)]; simp
  rw [takeReading_not_offline (by rw [hc]; simp), readUnsafe_shown hs,
    readStopHeld_not_online takeHardError_not_online]
  exact takeHardError_holds (e := .standUnsafe) inService

/-- The third reading without PRESENT alone. -/
theorem takeReading_third (hs : SlotReading.standUnsafe r = false)
    (hp : readPresent st r u = takeHardError st .lost (withMisses st 0 u)) :
    vget (takeReading st r u).stands st = { vget u.stands st with
      condition := .fault, misses := 0, stopHold := none
      errors := addError .lost (vget u.stands st).errors } := by
  rw [takeReading_not_offline (by rw [hc]; simp), readUnsafe_safe hs, hp,
    readStopHeld_not_online takeHardError_not_online, takeHardError_stand (withMisses_online hc 0)]
  simp [withMisses]

theorem ReadingFaults.out (h : ReadingFaults st u v) (k : StaysOut st v w) :
    OutOfService st .fault u (arbitrate w) := by
  obtain ⟨e, n, out, -⟩ := h
  have left := (takeHardError_outOfService (e := e) (withMisses_online hc n)).stays (out.trans k).ofEndGrant
  have same : SameOrders u (withMisses st n u) := ⟨rfl, rfl, rfl, rfl⟩
  exact same.outOfService left

/-- The open order of a stand made FAULT, with nothing done at the orders after (R129, R163). -/
theorem ReadingFaults.order (h : ReadingFaults st u v) (k : StaysOut st v w) (o : OrderStays st v w) :
    OrderFaulted st .standFault u (arbitrate w) ∧ NewReelReturned st u (arbitrate w) := by
  obtain ⟨e, n, out, stays⟩ := h
  have online := withMisses_online hc n
  have same : SameOrders u (withMisses st n u) := ⟨rfl, rfl, rfl, rfl⟩
  have order := (takeHardError_orderFaulted (e := e) online).stays rfl (out.trans k).ofEndGrant
    (stays.trans o).ofEndGrant
  have reels : (arbitrate w).reels =
      (arbitrate (endGrant st (takeHardError st e (withMisses st n u)))).reels := by
    rw [arbitrate_reels, arbitrate_reels, endGrant_reels, (stays.trans o).reels]
  exact ⟨same.orderFaulted order,
    same.newReelReturned (.of_reels rfl) ((takeHardError_newReelReturned (e := e) online).of_reels reels)⟩

end Faults

/-! ## The readings of a scan, stand by stand (R133) -/

section Readings

variable {s b u v w : State} {st : StandId}

/-- The reading of a stand's slot taken. -/
def takeSlot (slots : Vector SlotReading 8) (u : State) (x : StandId) : State :=
  takeReading x (vget slots x) u

theorem handReadings_eq (b : State) : handReadings b = (indices 8).foldl (takeSlot b.bus.slots) b := rfl

theorem takeSlots_keeps (slots : Vector SlotReading 8) (xs : List StandId) (u : State) :
    Keeps u (xs.foldl (takeSlot slots) u) :=
  foldl_keeps _ (fun _ _ h => takeReading_keeps h) xs (.refl u)

theorem takeSlots_standLeft {slots : Vector SlotReading 8} {xs : List StandId} (h : st ∉ xs) (u : State) :
    StandLeft st u (xs.foldl (takeSlot slots) u) :=
  foldl_inv (P := StandLeft st u) _ xs (fun _ _ hx hu => hu.trans (takeReading_standLeft fun e => h (e ▸ hx)))
    (.refl st u)

/-- Calm readings of other stands act on no order. -/
theorem takeSlots_elsewhere {slots : Vector SlotReading 8} {xs : List StandId} (h : st ∉ xs) (hn : xs.Nodup)
    (calm : ∀ x ∈ xs, Calm x (vget slots x) u) : Elsewhere st u (xs.foldl (takeSlot slots) u) := by
  induction xs generalizing u with
  | nil => exact .refl st u
  | cons x xs ih =>
    obtain ⟨hx, hn⟩ := List.nodup_cons.1 hn
    have first : Elsewhere st u (takeSlot slots u x) :=
      takeReading_elsewhere (fun e => h (List.mem_cons.2 (.inl e))) (calm x (List.mem_cons_self ..))
    refine first.trans (ih (fun hm => h (List.mem_cons_of_mem _ hm)) hn fun y hy => ?_)
    have apart : y ≠ x := fun e => hx (e ▸ hy)
    exact (calm y (List.mem_cons_of_mem _ hy)).later (takeReading_standLeft apart).stand (takeReading_keeps (.refl u))

/-- A stand's reading among those of a scan: u is the state before it, w the one after all of them. -/
structure ReadAt (st : StandId) (b u w : State) : Prop where
  before : StandLeft st b u
  kept : Keeps b u
  after : StandLeft st (takeReading st (vget b.bus.slots st) u) w
  rest : Keeps (takeReading st (vget b.bus.slots st) u) w
  calm : (∀ x, x ≠ st → Calm x (vget b.bus.slots x) b) →
    Elsewhere st b u ∧ Elsewhere st (takeReading st (vget b.bus.slots st) u) w

theorem handReadings_at (st : StandId) (b : State) : ∃ u, ReadAt st b u (handReadings b) := by
  obtain ⟨ys, zs, split, hy, hz, eq⟩ :=
    foldl_at (takeSlot b.bus.slots) (mem_indices st) (indices_nodup 8) b
  have nodup : (ys ++ st :: zs).Nodup := split ▸ indices_nodup 8
  obtain ⟨hys, hzs, apart⟩ := List.nodup_append.1 nodup
  rw [handReadings_eq, eq]
  refine ⟨_, takeSlots_standLeft hy b, takeSlots_keeps _ ys b, takeSlots_standLeft hz _, takeSlots_keeps _ zs _,
    fun calm => ⟨takeSlots_elsewhere hy hys fun x hx => calm x fun e => hy (e ▸ hx),
      takeSlots_elsewhere hz (List.nodup_cons.1 hzs).2 fun x hx => ?_⟩⟩
  have ne : x ≠ st := fun e => hz (e ▸ hx)
  have fresh : x ∉ ys := fun hm => apart x hm x (List.mem_cons_of_mem _ hx) rfl
  exact (calm x ne).later ((takeSlots_standLeft fresh b).trans (takeReading_standLeft ne)).stand
    (takeReading_keeps (takeSlots_keeps _ ys b))

namespace ReadAt

variable (h : ReadAt st b u w)

include h

theorem condition {c : Condition} (hc : (vget b.stands st).condition = c) :
    (vget u.stands st).condition = c := by rw [h.before.stand, hc]

/-- An OFFLINE stand that shows PRESENT and not UNSAFE goes ONLINE (R155). -/
theorem goes_online (hc : (vget b.stands st).condition = .offline)
    (hp : SlotReading.present (vget b.bus.slots st) = true)
    (hs : SlotReading.standUnsafe (vget b.bus.slots st) = false) :
    vget w.stands st = { vget b.stands st with
      condition := .online, misses := 0
      stopHold := if SlotReading.stopHeld (vget b.bus.slots st) then some (b.now + 3000) else none } ∧
    StatusWaits st w ∧ (standParam b st 13 = 1 → flagSet w st.val = true) := by
  have online : takeReading st (vget b.bus.slots st) u = goOnline st (vget b.bus.slots st) u := by
    rw [takeReading_offline (h.condition hc), hp, hs]
    rfl
  have after := h.after
  have rest := h.rest
  rw [online] at after rest
  refine ⟨?_, after.status ?_, fun he => rest.flags.flagSet (flagSet_raiseStand ?_)⟩
  · rw [after.stand, goOnline_eq, ← h.before.stand, ← h.kept.now]
    simp
  · rw [goOnline_eq]
    exact mem_queueRequest_self st _ u
  · rw [← he, standParam, standParam, ← h.kept.settings]
    rfl

/-- An OFFLINE stand not so shown stays OFFLINE (R155). -/
theorem stays_offline (hc : (vget b.stands st).condition = .offline)
    (hr : ¬ (SlotReading.present (vget b.bus.slots st) = true ∧
      SlotReading.standUnsafe (vget b.bus.slots st) = false)) : vget w.stands st = vget b.stands st := by
  have same : takeReading st (vget b.bus.slots st) u = u := by
    rw [takeReading_offline (h.condition hc), if_neg (by simpa using hr)]
  rw [h.after.stand, same, h.before.stand]

/-- A reading of an ONLINE stand that gives it no hard error (R156, R164). -/
theorem safe {n : Nat} (hc : (vget b.stands st).condition = .online)
    (hs : SlotReading.standUnsafe (vget b.bus.slots st) = false)
    (hp : readPresent st (vget b.bus.slots st) u = withMisses st n u) :
    vget w.stands st = { vget b.stands st with
      misses := n
      stopHold := if SlotReading.present (vget b.bus.slots st) && SlotReading.stopHeld (vget b.bus.slots st)
        then some ((vget b.stands st).stopHold.getD (b.now + 3000)) else none } := by
  rw [h.after.stand, takeReading_safe hs (h.condition hc) hp, ← h.before.stand, ← h.kept.now]
  simp

/-- A reading that makes an ONLINE stand FAULT (R129, R156, R163). -/
theorem faults (hc : (vget b.stands st).condition = .online)
    (hf : ReadingFaults st u (takeReading st (vget b.bus.slots st) u)) :
    OutOfService st .fault b (arbitrate w) ∧ ((∀ x, x ≠ st → Calm x (vget b.bus.slots x) b) →
      OrderFaulted st .standFault b (arbitrate w) ∧ NewReelReturned st b (arbitrate w)) := by
  have online := h.condition hc
  have out : StaysOut st (takeReading st (vget b.bus.slots st) u) w :=
    h.after.staysOut h.rest hf.not_online
  refine ⟨?_, fun calm => ?_⟩
  · have left := hf.out online out
    rw [OutOfService, standParam, h.kept.settings] at left
    exact left
  · obtain ⟨first, last⟩ := h.calm calm
    obtain ⟨order, reel⟩ := hf.order online out last.orderStays
    exact ⟨first.sameOrders.orderFaulted order,
      first.sameOrders.newReelReturned (.of_reels (first.only .reels (by simp))) reel⟩

end ReadAt

end Readings

end Sys2Proof.Machine
end

section
/-! A scan's end: the scan line, the bid set, and the parts assembled (R133 to R136, R155, R156, R162 to R164). -/

namespace Sys2Proof.Machine

open Sys2Proof

section ScanEnd

variable {s b u : State} {st : StandId} {slots : Vector Byte 8}

@[simp] theorem present_slotReading (x : Byte) : SlotReading.present (slotReading x) = x.getLsbD 0 := by
  simp [SlotReading.present, slotReading]

@[simp] theorem standUnsafe_slotReading (x : Byte) : SlotReading.standUnsafe (slotReading x) = x.getLsbD 1 := by
  simp [SlotReading.standUnsafe, slotReading]

@[simp] theorem stopHeld_slotReading (x : Byte) : SlotReading.stopHeld (slotReading x) = x.getLsbD 2 := by
  simp [SlotReading.stopHeld, slotReading]

@[simp] theorem bid_slotReading (x : Byte) : SlotReading.bid (slotReading x) = x.getLsbD 3 := by
  simp [SlotReading.bid, slotReading]

@[simp] theorem endScan_slots (slots : Vector Byte 8) (s : State) (st : StandId) :
    vget (endScan slots s).bus.slots st = slotReading (vget slots st) := vget_ofFn _ st

theorem endScan_bids (slots : Vector Byte 8) (s : State) (st : StandId) :
    vget (endScan slots s).bus.bids st = ((vget slots st).getLsbD 0 && (vget slots st).getLsbD 3) := by
  rw [← present_slotReading, ← bid_slotReading, ← endScan_slots slots s]
  exact vget_ofFn _ st

theorem exec_scanEnd (h : s.bus.scan ≠ none) :
    exec (.scanEnd slots) s = .next (arbitrate (handReadings (endScan slots s))) :=
  if_pos (Option.isSome_iff_ne_none.2 h)

/-- A grant takes the one stand it goes to out of the bid set (R140, R141). -/
theorem arbitrate_bids (st : StandId) (u : State) :
    (vget (arbitrate u).bus.bids st = true → vget u.bus.bids st = true) ∧
      (vget u.bus.bids st = true → vget (arbitrate u).bus.bids st = true ∨ granted (arbitrate u) st = true) := by
  have sending : (requestTurn u).bus.bids = u.bus.bids := by
    unfold requestTurn
    (repeat' split) <;> rfl
  rcases arbitrate_turn u with e | e | e <;> rw [e]
  · exact ⟨id, .inl⟩
  · rw [sending]
    exact ⟨id, .inl⟩
  · unfold grantTurn
    split
    · exact ⟨id, .inl⟩
    · next k _ =>
      by_cases hk : st = k
      · subst hk
        simp [granted]
      · simp +contextual [vget_vset_ne, hk]

theorem handReadings_queuesOnly (b : State) : QueuesOnly b (handReadings b) :=
  foldl_inv (P := QueuesOnly b) _ _ (fun _ _ _ h => h.trans takeReading_queuesOnly) (.refl b)

theorem QueuesOnly.bids (h : QueuesOnly s u) : u.bus.bids = s.bus.bids := by
  obtain ⟨q, p, hu, -⟩ := h
  rw [hu]

theorem handReadings_onlyIn (b : State) :
    OnlyIn [.reels, .verifies, .rows, .schedules, .sequencers, .bus, .stands, .port] b (handReadings b) :=
  (handReadings_keeps (.refl b)).onlyIn_orders
    (foldl_same (·.arms) _ (fun _ _ => takeReading_arms ..) _ b)
    (foldl_same (·.outputs) _ (fun _ _ => takeReading_outputs ..) _ b)
    (foldl_same (·.trackers) _ (fun _ _ => takeReading_trackers ..) _ b)

/-- The readings of the other stands are calm when each stand with an open order shows PRESENT and not UNSAFE. -/
theorem calm_of_slots (ha : ∀ x, x ≠ st → (vget s.stands x).condition = .online → openRow s x ≠ none →
      (vget slots x).getLsbD 0 = true ∧ (vget slots x).getLsbD 1 = false) :
    ∀ x, x ≠ st → Calm x (vget (endScan slots s).bus.slots x) (endScan slots s) := fun x hx ho hr => by
  simpa using ha x hx ho hr

namespace ReadAt

variable {w : State} (h : ReadAt st (endScan slots s) u w)

include h

/-- A reading that gives an ONLINE stand no hard error, by the bits of its slot (R156, R164). -/
theorem slot_safe {n : Nat} (hc : (vget s.stands st).condition = .online) (hs : (vget slots st).getLsbD 1 = false)
    (hp : readPresent st (slotReading (vget slots st)) u = withMisses st n u) :
    vget w.stands st = { vget s.stands st with
      misses := n
      stopHold := if (vget slots st).getLsbD 0 && (vget slots st).getLsbD 2
        then some ((vget s.stands st).stopHold.getD (s.now + 3000)) else none } := by
  have stand := h.safe (n := n) hc (by simpa using hs) (by simpa using hp)
  rw [endScan_slots, present_slotReading, stopHeld_slotReading] at stand
  exact stand

/-- A reading that makes an ONLINE stand FAULT (R129, R156, R163). -/
theorem slot_faults (hc : (vget s.stands st).condition = .online)
    (hf : ReadingFaults st u (takeReading st (slotReading (vget slots st)) u)) :
    OutOfService st .fault s (arbitrate w) ∧
      ((∀ x, x ≠ st → (vget s.stands x).condition = .online → openRow s x ≠ none →
          (vget slots x).getLsbD 0 = true ∧ (vget slots x).getLsbD 1 = false) →
        OrderFaulted st .standFault s (arbitrate w) ∧ NewReelReturned st s (arbitrate w)) := by
  have same : SameOrders s (endScan slots s) := ⟨rfl, rfl, rfl, rfl⟩
  obtain ⟨left, order⟩ := h.faults hc (by simpa using hf)
  refine ⟨same.outOfService left, fun ha => ?_⟩
  obtain ⟨faulted, returned⟩ := order (calm_of_slots ha)
  exact ⟨same.orderFaulted faulted, same.newReelReturned (.of_reels rfl) returned⟩

end ReadAt

end ScanEnd

/-- Settles O35: the scan's readings are kept, and each stand's is taken among those of the others. -/
theorem scanEnds : Obligations.ScanEnds := by
  intro slots s hscan alone acts
  obtain ⟨w, hw⟩ : ∃ w, handReadings (endScan slots s) = w := ⟨_, rfl⟩
  have readAt (st : StandId) : ∃ u, ReadAt st (endScan slots s) u w := hw ▸ handReadings_at st _
  have kept : Keeps (endScan slots s) (arbitrate w) := arbitrate_keeps (hw ▸ handReadings_keeps (.refl _))
  have bids : w.bus.bids = (endScan slots s).bus.bids := hw ▸ (handReadings_queuesOnly _).bids
  have ended : OnlyIn [.bus] s (endScan slots s) := setBus_onlyIn
  have read := handReadings_onlyIn (endScan slots s)
  rw [hw] at read
  obtain ⟨-, scan, lastEnd, kslots⟩ := kept.scan
  refine ⟨arbitrate w, by rw [exec_scanEnd hscan, hw], fun st => ?_, lastEnd, scan, fun st => ?_, fun st hc => ?_,
    fun st hc => ?_, ((ended.and_then read).and_then (arbitrate_onlyIn w)).mono (by simp)⟩
  · rw [kslots, endScan_slots]
    rfl
  · obtain ⟨was, still⟩ := arbitrate_bids st w
    rw [bids, endScan_bids, Bool.and_eq_true] at was still
    exact ⟨was, fun hp hb => still ⟨hp, hb⟩⟩
  · obtain ⟨u, reading⟩ := readAt st
    rw [arbitrate_stands]
    by_cases hr : (vget slots st).getLsbD 0 = true ∧ (vget slots st).getLsbD 1 = false
    · obtain ⟨stand, waits, flag⟩ := reading.goes_online hc (by simpa using hr.1) (by simpa using hr.2)
      rw [endScan_slots, stopHeld_slotReading] at stand
      rw [stand]
      exact ⟨iff_of_true rfl hr, .inl rfl, fun _ => ⟨rfl, rfl, asked_arbitrate waits, fun he =>
        flagSet_of_port (arbitrate_port w) (flag he)⟩⟩
    · have off : (vget w.stands st).condition = .offline := by
        rw [reading.stays_offline hc (by simpa using hr)]
        exact hc
      rw [off]
      exact ⟨iff_of_false (by simp) hr, .inr rfl, fun ho => by cases ho⟩
  · obtain ⟨u, reading⟩ := readAt st
    have online : (vget u.stands st).condition = .online := reading.condition hc
    have context : vget u.stands st = vget s.stands st := reading.before.stand
    have taken := reading.after.stand
    rw [endScan_slots] at taken
    rw [arbitrate_stands]
    refine ⟨fun hs => ?_, fun hs hp => ?_, fun hs hp hl => ⟨fun hm => ?_, fun hm => ?_⟩⟩
    · have hs' : SlotReading.standUnsafe (slotReading (vget slots st)) = true := by simpa using hs
      obtain ⟨left, order⟩ := reading.slot_faults hc (takeReading_faults online (.inl hs'))
      refine ⟨left, ?_, order⟩
      rw [taken]
      exact takeReading_holds online hs'
    · rw [reading.slot_safe hc hs (readPresent_present (by simpa using hp)), hp]
      exact ⟨hc, rfl, rfl⟩
    · have missed := readPresent_missed (x := st) (u := u) (r := slotReading (vget slots st))
        (by simpa using hp) (by rw [context, hl]) (by rw [context]; exact hm)
      rw [reading.slot_safe hc hs missed, hp, context]
      exact ⟨hc, rfl, rfl⟩
    · have third := readPresent_third (x := st) (u := u) (r := slotReading (vget slots st))
        (by simpa using hp) (by rw [context, hl]) (by rw [context]; exact hm)
      obtain ⟨left, order⟩ := reading.slot_faults hc (takeReading_faults online (.inr third))
      rw [taken, takeReading_third online (by simpa using hs) third]
      exact ⟨left, rfl, rfl, order⟩

end Sys2Proof.Machine
end

section
/-! The laws of the stand bus that every step keeps (R138 to R141): a command that may queue or bid ends with the
arbiter's choice, after which nothing waits on a FREE pair, and every other leaves queues, bids and pair alone. -/

namespace Sys2Proof.Machine

open Sys2Proof

/-- A change after which each law of the bus holds, if it held before. -/
structure BusLawsStay (s t : State) : Prop where
  queues : QueuesOk s → QueuesOk t
  waits : NothingWaits s → NothingWaits t

section BusLaws

variable {s t u : State}

/-- The laws speak of the queues, the bids and the pair alone. -/
theorem BusLawsStay.of_parts (hq : t.bus.queues = s.bus.queues) (hb : t.bus.bids = s.bus.bids)
    (hp : t.bus.pair = s.bus.pair) : BusLawsStay s t where
  queues h st := by rw [hq]; exact h st
  waits h := by unfold NothingWaits; rw [hq, hb, hp]; exact h

theorem BusLawsStay.of_bus (h : t.bus = s.bus) : BusLawsStay s t := .of_parts (by rw [h]) (by rw [h]) (by rw [h])

theorem BusLawsStay.refl (s : State) : BusLawsStay s s := .of_bus rfl

theorem BusLawsStay.trans (h : BusLawsStay s t) (k : BusLawsStay t u) : BusLawsStay s u :=
  ⟨k.queues ∘ h.queues, k.waits ∘ h.waits⟩

/-- After the arbiter's choice only the queues before it matter (R140). -/
theorem BusLawsStay.chosen (h : QueuesOk s → QueuesOk u) : BusLawsStay s (arbitrate u) :=
  ⟨(arbitrate_keeps (.refl u)).queues ∘ h, fun _ => arbitrate_nothingWaits u⟩

theorem leaves_chosen (h : QueuesOk s → QueuesOk u) : Leaves (BusLawsStay s) (.next (arbitrate u)) :=
  leaves_of_next (.chosen h)

theorem leaves_sameBus (h : t.bus = s.bus) : Leaves (BusLawsStay s) (.next t) := leaves_of_next (.of_bus h)

end BusLaws

/-! ## Console commands that queue nothing -/

section Quiet

variable {s : State} {body : State → State × Reply}

/-- A property of the bus alone. -/
def OfBus (Q : State → Prop) : Prop := ∀ u v : State, v.bus = u.bus → Q u → Q v

/-- A frame leaves the bus as it is or as its body leaves it. -/
theorem takeCommand_ofBus {Q : State → Prop} (hQ : OfBus Q) (hs : Q s) (k : FrameClass) (a c : Byte)
    (hb : ∀ u, Q u → Q (body u).1) : Q (takeCommand k a c body s) := by
  have run : Q (runAfter k s) := by cases k <;> exact hQ s _ rfl hs
  unfold takeCommand
  split
  · exact hs
  · split
    · split
      · exact hs
      · exact hQ (body (runAfter k s)).1 _ rfl (hb _ run)
    · split
      · exact hb _ run
      · exact run

theorem withLength_ofBus {Q : State → Prop} (n : Nat) (p : List Byte) (hb : ∀ u, Q u → Q (body u).1) (u : State)
    (hu : Q u) : Q (withLength n p body u).1 := by
  unfold withLength
  split
  · exact hb u hu
  · exact hu

/-- A command whose body keeps the laws, with no choice of the arbiter after it. -/
theorem answerCommand_busLaws (k : FrameClass) (a c : Byte) (hb : ∀ u, BusLawsStay u (body u).1) :
    Leaves (BusLawsStay s) (answerCommand k a c body s) :=
  leaves_of_next (takeCommand_ofBus (fun _ _ h hu => hu.trans (.of_bus h)) (.refl s) k a c
    fun u hu => hu.trans (hb u))

theorem withLength_busLaws (n : Nat) (p : List Byte) (hb : ∀ u, BusLawsStay u (body u).1) (u : State) :
    BusLawsStay u (withLength n p body u).1 :=
  withLength_ofBus n p (fun v hv => hv.trans (hb v)) u (.refl u)

/-- A command whose body leaves the bus alone. -/
theorem answerCommand_sameBus (k : FrameClass) (a c : Byte) (n : Nat) (p : List Byte)
    (hb : ∀ u, (body u).1.bus = u.bus) : Leaves (BusLawsStay s) (answerCommand k a c (withLength n p body) s) :=
  answerCommand_busLaws k a c (withLength_busLaws n p fun u => .of_bus (hb u))

theorem enterReelBody_bus (p : List Byte) (u : State) : (enterReelBody p u).1.bus = u.bus := by
  rcases enterReelBody_cases p u with e | ⟨i, x, -, -, e⟩
  · rw [e]
  · rw [e]; rfl

theorem amendReelBody_bus (p : List Byte) (u : State) : (amendReelBody p u).1.bus = u.bus := by
  rcases amendReelBody_cases p u with e | ⟨i, r, y, -, -, e⟩
  · rw [e]
  · rw [e]; rfl

theorem retireReelBody_bus (p : List Byte) (u : State) : (retireReelBody p u).1.bus = u.bus := by
  unfold retireReelBody
  (repeat' split) <;> rfl

theorem threadReelBody_bus (p : List Byte) (u : State) : (threadReelBody p u).1.bus = u.bus := by
  unfold threadReelBody
  (repeat' split) <;> rfl

theorem releaseOrderBody_bus (p : List Byte) (u : State) : (releaseOrderBody p u).1.bus = u.bus := by
  rcases releaseOrderBody_cases p u with e | ⟨i, st, e⟩
  · rw [e]
  · simp [e]

theorem parameterRunBody_bus (p : List Byte) (u : State) : (parameterRunBody p u).1.bus = u.bus := by
  unfold parameterRunBody
  split <;> rfl

theorem scanModeBody_busLaws (p : List Byte) (u : State) : BusLawsStay u (scanModeBody p u).1 := by
  unfold scanModeBody takeScanMode
  dsimp only
  (repeat' split) <;> exact .of_parts rfl rfl rfl

/-- A request in exchange stays in exchange when it is abandoned (R151). -/
theorem abandonAny_eq_free {x : Pair} (h : abandonAny x = .free) : x = .free := by
  cases x with
  | free => rfl
  | request => cases h
  | grant => cases h

/-- RESTART empties the queues and leaves the bids (R151). -/
theorem restartBus_busLaws (u : State) : BusLawsStay u (restartBus u) where
  queues _ st := by simpa [restartBus] using QueueOk.nil
  waits h hf st := ⟨by simp [restartBus], (h (abandonAny_eq_free hf) st).2⟩

theorem restartBody_busLaws (u : State) : BusLawsStay u (restartBody u).1 := by
  unfold restartBody
  split
  · exact .refl u
  · have emptied : BusLawsStay u (dropTags (emptyOrders u)) := .of_bus rfl
    exact (emptied.trans (restartBus_busLaws _)).trans (.of_bus rfl)

end Quiet

/-! ## Console commands after which the arbiter chooses -/

section Sending

variable {s u : State} {body : State → State × Reply}

theorem queuesOk_ofBus : OfBus QueuesOk := fun _ _ h hu st => by rw [h]; exact hu st

/-- A command whose body keeps the queues lawful, and then the arbiter's choice. -/
theorem answerAndSend_busLaws (k : FrameClass) (a c : Byte) (hb : ∀ u, QueuesOk u → QueuesOk (body u).1) :
    Leaves (BusLawsStay s) (answerAndSend k a c body s) :=
  leaves_chosen fun h => takeCommand_ofBus queuesOk_ofBus h k a c hb

theorem mountReelBody_queues (p : List Byte) (h : QueuesOk u) : QueuesOk (mountReelBody p u).1 := by
  unfold mountReelBody
  (repeat' split) <;> try exact h
  exact (queueRequest_keeps (.refl (setReel u _ _)) rfl).queues h

theorem preparedBody_queues (p : List Byte) (h : QueuesOk u) : QueuesOk (preparedBody p u).1 := by
  unfold preparedBody
  (repeat' split) <;> try exact h
  exact (declare_keeps (.refl (setReel u _ _))).queues h

theorem stopReelBody_queues (p : List Byte) (h : QueuesOk u) : QueuesOk (stopReelBody p u).1 := by
  unfold stopReelBody
  dsimp only
  (repeat' split) <;> try exact h
  exact (cancelStopped_keeps (stopTracker_keeps (.refl (setReel u _ _)))).queues h

theorem orderSpliceBody_queues (p : List Byte) (h : QueuesOk u) : QueuesOk (orderSpliceBody p u).1 := by
  rcases orderSpliceBody_cases p u with e | ⟨i, row, -, -, -, e⟩ <;> rw [e]
  · exact h
  · exact (createOrder_keeps i row u).queues h

theorem withOrder_queues (p : List Byte) {f : RowId → OrderRow → State → State × Reply}
    (hf : ∀ i row, QueuesOk (f i row u).1) (h : QueuesOk u) : QueuesOk (withOrder p f u).1 := by
  unfold withOrder
  dsimp only
  (repeat' split) <;> try exact h
  exact hf _ _

theorem confirmBody_queues (p : List Byte) (h : QueuesOk u) : QueuesOk (confirmBody p u).1 := by
  refine withOrder_queues p (fun i row => ?_) h
  unfold confirmRow
  split
  case h_2 => exact (testOrder_keeps (raiseRow_keeps (.refl (setRow u i _)))).queues h
  all_goals exact h

theorem cancelOrderBody_queues (p : List Byte) (h : QueuesOk u) : QueuesOk (cancelOrderBody p u).1 := by
  refine withOrder_queues p (fun i row => ?_) h
  unfold cancelRow
  split
  case h_1 | h_2 | h_3 | h_4 => exact (closeOrder_keeps (.refl u)).queues h
  all_goals exact h

theorem indexStandBody_queues (p : List Byte) (h : QueuesOk u) : QueuesOk (indexStandBody p u).1 := by
  unfold indexStandBody
  (repeat' split) <;> try exact h
  exact (queueRequest_keeps (.refl u) rfl).queues h

theorem settleCondition_queues (st : StandId) (h : QueuesOk u) : QueuesOk (settleCondition st u) := by
  unfold settleCondition
  dsimp only
  split
  · exact (raiseStand_keeps (queueRequest_keeps (.refl (modStand st _ u)) rfl)).queues h
  · split
    · exact h
    · exact (faultOrder_keeps (raiseStand_keeps (.refl (modStand st _ u)))).queues h
    · exact (raiseStand_keeps (.refl (modStand st _ u))).queues h
    · exact (raiseStand_keeps (.refl (modStand st _ u))).queues h

theorem clearStandBody_queues (p : List Byte) (h : QueuesOk u) : QueuesOk (clearStandBody p u).1 := by
  unfold clearStandBody
  (repeat' split) <;> try exact h
  exact settleCondition_queues _ ((clearStandBus_keeps (.refl (modStand _ _ u))).queues h)

theorem writeParam_queues (x : Target) (i v : Nat) (h : QueuesOk u) : QueuesOk (writeParam x i v u).1 := by
  unfold writeParam writeStand
  dsimp only
  (repeat' split) <;> try exact h
  exact (ite_keeps (evaluate_keeps (.refl (storeLine _ _ _ u))) (.refl _)).queues h

theorem writeRun_queues (x : Target) (i : Nat) (vs : List Nat) (h : QueuesOk u) :
    QueuesOk (writeRun x i vs u).1 := by
  induction vs generalizing i u with
  | nil => exact h
  | cons v vs ih => exact ih (i + 1) (writeParam_queues x i v h)

theorem setParameterBody_queues (p : List Byte) (h : QueuesOk u) : QueuesOk (setParameterBody p u).1 := by
  unfold setParameterBody
  split
  · exact h
  · exact writeParam_queues _ _ _ h

theorem dataBody_queues (p : List Byte) (h : QueuesOk u) : QueuesOk (dataBody p u).1 := by
  unfold dataBody
  (repeat' split) <;> try exact h
  exact writeRun_queues _ _ _ h

end Sending

/-! ## Events -/

section Events

variable {s : State}

theorem execPowerOnReset_busLaws (a : BitVec 5) : Leaves (BusLawsStay s) (execPowerOnReset a s) := by
  obtain ⟨-, -, -, -, queues, waits, -⟩ := resetMeetsLaws
  exact leaves_of_next ⟨fun _ => queues, fun _ => waits⟩

theorem startScan_busLaws {u : State} (h : u.bus = s.bus) : BusLawsStay s (startScan u) :=
  (BusLawsStay.of_bus h).trans (.of_parts rfl rfl rfl)

theorem execResetRelease_busLaws : Leaves (BusLawsStay s) (execResetRelease s) := by
  unfold execResetRelease
  split
  · exact leaves_of_next (startScan_busLaws rfl)
  · exact leaves_sameBus rfl

theorem execScanCall_busLaws : Leaves (BusLawsStay s) (execScanCall s) := by
  unfold execScanCall
  split
  · exact leaves_of_next (startScan_busLaws rfl)
  · exact leaves_sameBus rfl

theorem execQuietTimer_busLaws : Leaves (BusLawsStay s) (execQuietTimer s) := by
  unfold execQuietTimer
  split
  · exact leaves_of_next (startScan_busLaws rfl)
  · exact leaves_sameBus rfl

theorem execPulseEnd_busLaws (st : StandId) (o : OutputLine) : Leaves (BusLawsStay s) (execPulseEnd st o s) := by
  unfold execPulseEnd
  split <;> exact leaves_sameBus rfl

theorem execStaleLimitReached_busLaws (st : StandId) (arm : Arm) :
    Leaves (BusLawsStay s) (execStaleLimitReached st arm s) := by
  unfold execStaleLimitReached reportStale
  split <;> exact leaves_sameBus rfl

theorem execReadLimit_busLaws (st : StandId) (k : ReadKind) : Leaves (BusLawsStay s) (execReadLimit st k s) := by
  unfold execReadLimit
  split
  · exact leaves_sameBus rfl
  · next o _ =>
    have closed : BusLawsStay s (closeRead st k (reachTime o.limit s)) := .of_parts rfl rfl rfl
    cases k <;> exact leaves_of_next (closed.trans (.of_bus (writeOutcome_bus ..)))

theorem execSpeedWindowEnd_busLaws (l : LineId) : Leaves (BusLawsStay s) (execSpeedWindowEnd l s) := by
  rw [show execSpeedWindowEnd l s = .next (arbitrate (windowEnded l s)) from exec_speedWindowEnd l s]
  have window : (windowState l s).bus = s.bus := windowState_onlyIn l s .bus (by simp)
  exact leaves_of_next ((BusLawsStay.of_bus window).trans
    ⟨(windowEnded_keeps l s).queues, fun _ => arbitrate_nothingWaits _⟩)

theorem execRevolutionMark_busLaws (st : StandId) (arm : Arm) :
    Leaves (BusLawsStay s) (execRevolutionMark st arm s) := by
  unfold execRevolutionMark
  dsimp only
  split
  · exact leaves_sameBus (verifyMark_bus ..)
  · exact leaves_chosen (verifyMark_keeps (sequencerInterval_keeps
      (trackerInterval_keeps (.refl (setArmContext s st arm _))))).queues

theorem execTapeMark_busLaws (st : StandId) : Leaves (BusLawsStay s) (execTapeMark st s) := by
  unfold execTapeMark
  split
  · exact leaves_sameBus rfl
  · exact leaves_chosen (sequencerTape_keeps (.refl (setArmContext s st _ _))).queues

theorem execScanEnd_busLaws (slots : Vector Byte 8) : Leaves (BusLawsStay s) (execScanEnd slots s) := by
  unfold execScanEnd
  split
  · exact leaves_chosen (handReadings_keeps (.refl (endScan slots s))).queues
  · exact leaves_sameBus rfl

theorem execStopHoldTimerEnd_busLaws (st : StandId) : Leaves (BusLawsStay s) (execStopHoldTimerEnd st s) := by
  unfold execStopHoldTimerEnd
  dsimp only
  split
  · exact leaves_sameBus rfl
  · next e _ =>
    split
    · next ho => exact leaves_chosen (leaveService_keeps (.refl (reachTime e s)) (eq_of_beq ho) (by decide)).queues
    · exact leaves_sameBus rfl

theorem execAccept_busLaws (st : StandId) (k : RequestKind) (arm : Option Arm) :
    Leaves (BusLawsStay s) (execAccept st k arm s) := by
  unfold execAccept
  split
  · exact leaves_sameBus rfl
  · have freed : Keeps s (freePair s) := freePair_keeps (.refl s)
    exact leaves_chosen (ite_keeps freed (acceptRequest_keeps freed)).queues

theorem execRefuse_busLaws (st : StandId) (k : RequestKind) (arm : Option Arm) (why : StandReason) :
    Leaves (BusLawsStay s) (execRefuse st k arm why s) := by
  unfold execRefuse
  split
  · exact leaves_sameBus rfl
  · have freed : Keeps s (freePair s) := freePair_keeps (.refl s)
    exact leaves_chosen (ite_keeps freed (refuseRequest_keeps (writeRefusal_keeps freed))).queues

theorem execReplyTimeEnd_busLaws : Leaves (BusLawsStay s) (execReplyTimeEnd s) := by
  unfold execReplyTimeEnd
  split
  · exact leaves_chosen (takeHardError_keeps (freePair_keeps (.refl (reachTime _ s)))).queues
  · exact leaves_sameBus rfl

theorem execGrantLapse_busLaws : Leaves (BusLawsStay s) (execGrantLapse s) := by
  unfold execGrantLapse
  split
  · next lim _ =>
    have freed : Keeps (reachTime lim s) (freePair (reachTime lim s)) := freePair_keeps (.refl _)
    exact leaves_chosen (ite_keeps (setLapses_keeps freed) (takeHardError_keeps (setLapses_keeps freed))).queues
  · exact leaves_sameBus rfl

theorem execIndexTimeout_busLaws (st : StandId) : Leaves (BusLawsStay s) (execIndexTimeout st s) := by
  unfold execIndexTimeout
  split
  · exact leaves_sameBus rfl
  · exact leaves_chosen
      (takeHardError_keeps (writeOutcome_keeps (setIndexRecord_keeps (.refl (reachTime _ s))))).queues

theorem execVerifyTimeout_busLaws (st : StandId) : Leaves (BusLawsStay s) (execVerifyTimeout st s) := by
  unfold execVerifyTimeout
  split
  · exact leaves_sameBus rfl
  · split
    · exact leaves_sameBus rfl
    · exact leaves_chosen (ite_keeps (repeatRun_keeps (.refl (reachTime _ s))) (finishRun_keeps (.refl _))).queues

theorem execCutWaitEnd_busLaws (st : StandId) : Leaves (BusLawsStay s) (execCutWaitEnd st s) := by
  unfold execCutWaitEnd
  split
  · exact leaves_sameBus rfl
  · exact leaves_chosen (tryCloseDone_keeps (modSequencer_keeps (.refl (reachTime _ s)))).queues

theorem execRetractTimeout_busLaws (st : StandId) : Leaves (BusLawsStay s) (execRetractTimeout st s) := by
  unfold execRetractTimeout
  split
  · exact leaves_sameBus rfl
  · exact leaves_chosen (endRetractWait_keeps (.refl (reachTime _ s))).queues

/-- A message on a grant ends it, and the arbiter chooses (R147). -/
theorem onGrant_busLaws (st : StandId) {f : State → State} (hf : Keeps s (f s)) :
    Leaves (BusLawsStay s) (onGrant st f s) := by
  unfold onGrant
  split
  · exact leaves_chosen (endGrant_keeps hf).queues
  · exact leaves_sameBus rfl

theorem execIndexDone_busLaws (st : StandId) (x y z : SpiderPos) :
    Leaves (BusLawsStay s) (execIndexDone st x y z s) :=
  onGrant_busLaws st (ite_keeps (takeIndexDone_keeps (setIndexRecord_keeps (.refl s))) (.refl s))

theorem execArmHome_busLaws (st : StandId) : Leaves (BusLawsStay s) (execArmHome st s) :=
  onGrant_busLaws st (ite_keeps (endRetract_keeps (.refl s)) (.refl s))

theorem execCutConfirmed_busLaws (st : StandId) : Leaves (BusLawsStay s) (execCutConfirmed st s) :=
  onGrant_busLaws st (ite_keeps (tryCloseDone_keeps (modSequencer_keeps (.refl s))) (.refl s))

theorem execArmLoaded_busLaws (st : StandId) (arm : Arm) : Leaves (BusLawsStay s) (execArmLoaded st arm s) :=
  onGrant_busLaws st (raiseStand_keeps (setLoaded_keeps (.refl s)))

theorem execArmEmptied_busLaws (st : StandId) (arm : Arm) : Leaves (BusLawsStay s) (execArmEmptied st arm s) :=
  onGrant_busLaws st (raiseStand_keeps (armReportedEmpty_keeps (.refl s)))

theorem execQueryArm_busLaws (st : StandId) (arm : Option Arm) : Leaves (BusLawsStay s) (execQueryArm st arm s) :=
  onGrant_busLaws st (setBus_keeps (.refl s) ⟨rfl, rfl, rfl, rfl⟩ id)

end Events

/-! ## Every command and every step -/

theorem exec_busLaws (c : Instr) (s : State) : Leaves (BusLawsStay s) (exec c s) := by
  cases c with
  | powerOnReset a => exact execPowerOnReset_busLaws a
  | resetRelease => exact execResetRelease_busLaws
  | encoderPulse l => exact leaves_chosen (reportLine_keeps (.refl (setLine s l _))).queues
  | speedWindowEnd l => exact execSpeedWindowEnd_busLaws l
  | commitPointReport r => exact leaves_chosen (reportCommitPoint_keeps (.refl s)).queues
  | latestCommitPointReport r => exact leaves_chosen (reportLatest_keeps (.refl s)).queues
  | matchDeadlineReport st => exact leaves_chosen (reportDeadline_keeps (.refl s)).queues
  | pastePositionReport st => exact leaves_chosen (reportPaste_keeps (.refl s)).queues
  | knifePositionReport st => exact leaves_chosen (reportKnife_keeps (.refl s)).queues
  | staleLimitReached st arm => exact execStaleLimitReached_busLaws st arm
  | pulseEnd st o => exact execPulseEnd_busLaws st o
  | revolutionMark st arm => exact execRevolutionMark_busLaws st arm
  | tapeMark st => exact execTapeMark_busLaws st
  | scanCall => exact execScanCall_busLaws
  | quietTimer => exact execQuietTimer_busLaws
  | scanEnd slots => exact execScanEnd_busLaws slots
  | stopHoldTimerEnd st => exact execStopHoldTimerEnd_busLaws st
  | accept st k arm => exact execAccept_busLaws st k arm
  | refuse st k arm why => exact execRefuse_busLaws st k arm why
  | replyTimeEnd => exact execReplyTimeEnd_busLaws
  | grantLapse => exact execGrantLapse_busLaws
  | readLimit st k => exact execReadLimit_busLaws st k
  | indexTimeout st => exact execIndexTimeout_busLaws st
  | verifyTimeout st => exact execVerifyTimeout_busLaws st
  | cutWaitEnd st => exact execCutWaitEnd_busLaws st
  | retractTimeout st => exact execRetractTimeout_busLaws st
  | response st b => exact onGrant_busLaws st (takeResponse_keeps (.refl s))
  | indexDone st x y z => exact execIndexDone_busLaws st x y z
  | verifyDone st arm => exact onGrant_busLaws st (takeVerifyDone_keeps (.refl s))
  | armHome st => exact execArmHome_busLaws st
  | cutConfirmed st => exact execCutConfirmed_busLaws st
  | armLoaded st arm => exact execArmLoaded_busLaws st arm
  | armEmptied st arm => exact execArmEmptied_busLaws st arm
  | queryArm st arm => exact execQueryArm_busLaws st arm
  | consoleFrameDiscarded p => exact leaves_sameBus rfl
  | answerFrameSeen a code p => exact leaves_sameBus rfl
  | unknownCode a code p => exact answerCommand_busLaws _ a code fun u => .refl u
  | enterReel a p => exact answerCommand_sameBus _ a _ _ p (enterReelBody_bus p)
  | mountReel a p =>
    exact answerAndSend_busLaws _ a _ (withLength_ofBus _ p fun _ => mountReelBody_queues p)
  | prepared a p => exact answerAndSend_busLaws _ a _ (withLength_ofBus _ p fun _ => preparedBody_queues p)
  | amendReel a p => exact answerCommand_sameBus _ a _ _ p (amendReelBody_bus p)
  | retireReel a p => exact answerCommand_sameBus _ a _ _ p (retireReelBody_bus p)
  | readReel a p => exact answerCommand_sameBus _ a _ _ p fun u => by rw [readReelBody_state]
  | readArm a p => exact answerCommand_sameBus _ a _ _ p fun u => by rw [readArmBody_state]
  | listReels a p => exact answerCommand_sameBus _ a _ _ p fun u => by rw [listReelsBody_state]
  | threadReel a p => exact answerCommand_sameBus _ a _ _ p (threadReelBody_bus p)
  | stopReel a p => exact answerAndSend_busLaws _ a _ (withLength_ofBus _ p fun _ => stopReelBody_queues p)
  | orderSplice a p =>
    exact answerAndSend_busLaws _ a _ (withLength_ofBus _ p fun _ => orderSpliceBody_queues p)
  | confirm a p => exact answerAndSend_busLaws _ a _ (withLength_ofBus _ p fun _ => confirmBody_queues p)
  | cancelOrder a p =>
    exact answerAndSend_busLaws _ a _ (withLength_ofBus _ p fun _ => cancelOrderBody_queues p)
  | releaseOrder a p => exact answerCommand_sameBus _ a _ _ p (releaseOrderBody_bus p)
  | readOrder a p => exact answerCommand_sameBus _ a _ _ p fun u => by rw [readOrderBody_state]
  | indexStand a p =>
    exact answerAndSend_busLaws _ a _ (withLength_ofBus _ p fun _ => indexStandBody_queues p)
  | clearStand a p =>
    exact answerAndSend_busLaws _ a _ (withLength_ofBus _ p fun _ => clearStandBody_queues p)
  | readStand a p => exact answerCommand_sameBus _ a _ _ p fun u => by rw [readStandBody_state]
  | readLine a p => exact answerCommand_sameBus _ a _ _ p fun u => by rw [readLineBody_state]
  | setParameter a p =>
    exact answerAndSend_busLaws _ a _ (withLength_ofBus _ p fun _ => setParameterBody_queues p)
  | readParameter a p => exact answerCommand_sameBus _ a _ _ p fun u => by rw [readParameterBody_state]
  | parameterRun a p => exact answerCommand_sameBus _ a _ _ p (parameterRunBody_bus p)
  | data a p => exact answerAndSend_busLaws _ a _ fun _ => dataBody_queues p
  | readChanges a p => exact answerCommand_sameBus _ a _ _ p fun _ => rfl
  | ackChanges a p => exact answerCommand_sameBus _ a _ _ p fun _ => rfl
  | scanMode a p => exact answerCommand_busLaws _ a _ (withLength_busLaws _ p (scanModeBody_busLaws p))
  | restart a p => exact answerCommand_busLaws _ a _ (withLength_busLaws _ p restartBody_busLaws)
  | answerSent => exact leaves_sameBus rfl
  | unroutedStandMessage st => exact onGrant_busLaws st (.refl s)

theorem step_busLaws (s : State) : Leaves (BusLawsStay s) (step s) := by
  unfold step
  split
  · next c rest _ =>
    have popped : BusLawsStay s { s with pending := rest } := .of_bus rfl
    exact fun t h => popped.trans (exec_busLaws c _ t h)
  · unfold idle
    split
    · exact exec_busLaws _ s
    · exact leaves_sameBus rfl

/-! ## The bound of a queue (R138) -/

section Bound

variable {a b r : Request} {q : List Request}

/-- The kind that R138 counts a request as: the drive requests of an arm are one kind. -/
def countedKind (k : RequestKind) : RequestKind := if isDrive k then .accel else k

/-- The kind that R138 counts a request as, and its arm. -/
def countedAs (r : Request) : RequestKind × Option Arm := (countedKind r.kind, r.arm)

/-- The kinds and arms that a lawful queue may hold: three without an arm, three for each of the three arms. -/
def countedKinds : List (RequestKind × Option Arm) :=
  [(.index, none), (.retract, none), (.status, none)] ++
    allArms.flatMap fun x => [(.verify, some x), (.gauge, some x), (.accel, some x)]

theorem countedKind_eq_iff (k l : RequestKind) :
    countedKind k = countedKind l ↔ (k == l || (isDrive k && isDrive l)) = true := by
  cases k <;> cases l <;> decide

/-- Two requests are the same for R138 when they count as one kind and name one arm. -/
theorem sameRequest_iff : sameRequest a b = true ↔ countedAs a = countedAs b := by
  rw [countedAs, countedAs, Prod.mk.injEq, countedKind_eq_iff, sameRequest, Bool.and_eq_true, beq_iff_eq, and_comm]

theorem countedAs_mem (h : wellArmed r = true) : countedAs r ∈ countedKinds := by
  obtain ⟨kind, arm, c, n⟩ := r
  have known : (kind.hasArm == arm.isSome) = true → (countedKind kind, arm) ∈ countedKinds := by
    rcases arm with _ | (_ | _ | _) <;> cases kind <;> decide
  exact known h

/-- A lawful queue holds no kind and arm twice, and there are twelve. -/
theorem QueueOk.length_le (h : QueueOk q) : q.length ≤ 12 := by
  obtain ⟨armed, differ⟩ := h
  have nodup : (q.map countedAs).Nodup :=
    List.pairwise_map.2 (differ.imp fun hd he => by rw [sameRequest_iff.2 he] at hd; cases hd)
  have known : q.map countedAs ⊆ countedKinds := fun x hx => by
    obtain ⟨r, hr, rfl⟩ := List.mem_map.1 hx
    exact countedAs_mem (armed r hr)
  calc q.length = (q.map countedAs).length := (List.length_map _).symm
    _ ≤ countedKinds.length := (nodup.subperm known).length_le
    _ = 12 := rfl

end Bound

/-- Settles O13: every step keeps the law of the queues, and a lawful queue has a place for twelve kinds. -/
theorem queuesStayLawful : Obligations.QueuesStayLawful :=
  ⟨fun s t h e => (step_busLaws s t e).queues h, fun _ => QueueOk.length_le⟩

/-- Settles O14: a step ends with the arbiter's choice or leaves the queues, the bids and the pair alone. -/
theorem nothingWaitsOnFreePair : Obligations.NothingWaitsOnFreePair :=
  fun s t h e => (step_busLaws s t e).waits h

end Sys2Proof.Machine
end

section
/-! The frames of the stands' messages (R153): each code is read back from its byte, a frame's parts from the
frame, and so each message from its frame. -/

namespace Sys2Proof.Machine

open Sys2Proof

/-! ## The coded bytes -/

theorem requestKindOf_kindByte (k : RequestKind) : requestKindOf (kindByte k) = some k := by cases k <;> rfl

theorem reasonOf_reasonByte (why : StandReason) : reasonOf (reasonByte why) = some why := by cases why <;> rfl

theorem armOf_armByte (arm : Arm) : armOf (armByte (some arm)) = some arm := by cases arm <;> rfl

theorem armByte_ne_zero (arm : Arm) : (armByte (some arm) == 0) = false := by cases arm <;> rfl

theorem positionOf_spiderByte (p : SpiderPos) : positionOf (spiderByte p) = some p := by cases p <;> rfl

/-- The position stands in the low bits and the loaded flag in bit 7. -/
theorem armStatusOf_armStatusByte (x : ArmStatus) : armStatusOf (armStatusByte x) = some x := by
  obtain ⟨position, loaded⟩ := x
  cases loaded <;> cases position <;> rfl

/-- The arm byte of an answer whose kind names an arm exactly when it carries one. -/
theorem echoedArm_armByte {k : RequestKind} {arm : Option Arm} (h : (k.hasArm == arm.isSome) = true) :
    echoedArm k (armByte arm) = some arm := by
  have hasArm : k.hasArm = arm.isSome := beq_iff_eq.1 h
  cases arm with
  | none => simp [echoedArm, hasArm, armByte]
  | some x => simp [echoedArm, hasArm, armOf_armByte]

@[simp] theorem beBytes_length (n v : Nat) : (beBytes n v).length = n := by
  induction n generalizing v with
  | zero => rfl
  | succ n ih => simp [beBytes, ih]

/-- A value of sixteen bits is that of its two bytes. -/
theorem ofBytes_two (d : BitVec 16) :
    BitVec.ofNat 16 (ofBytes [BitVec.ofNat 8 (d.toNat / 256), BitVec.ofNat 8 d.toNat]) = d := by
  apply BitVec.eq_of_toNat_eq
  simp only [ofBytes, List.foldl, BitVec.toNat_ofNat]
  omega

/-! ## The parts of a frame -/

/-- The sender byte of a stand: bit 7 set, and its number in the low bits. -/
theorem senderByte_stand (st : StandId) :
    (BitVec.ofNat 8 ((if true = true then 128 else 0) + (st.val + 1))).toNat % 16 = st.val + 1 ∧
      (BitVec.ofNat 8 ((if true = true then 128 else 0) + (st.val + 1))).getLsbD 7 = true := by
  revert st; decide

/-- A frame that a stand forms is taken, and its parts are those it was formed of. -/
theorem parseStand_busFrame (st : StandId) (kind arm : Byte) {p : List Byte} (hp : p.length ≤ 11) :
    parseStand (busFrame true st kind arm p) = some (st, kind, arm, p) := by
  obtain ⟨number, sender⟩ := senderByte_stand st
  have len : (BitVec.ofNat 8 p.length).toNat = p.length := by
    rw [BitVec.toNat_ofNat]; omega
  unfold busFrame
  generalize BitVec.ofNat 8 ((if true = true then 128 else 0) + (st.val + 1)) = who at number sender ⊢
  have range : 1 ≤ who.toNat % 16 ∧ who.toNat % 16 ≤ 8 := by omega
  simp only [parseStand, List.cons_append]
  rw [dif_pos range]
  simp [number, sender, len, hp]

/-! ## A frame read by its kind code -/

section Kinds

variable (granted : Bool) (st : StandId) (arm : Byte)

theorem standCommandOf_accept (k : Byte) : standCommandOf false (busFrame true st 0x81 arm [k]) =
    (requestKindOf k).bind fun rk => (echoedArm rk arm).map fun x => .accept st rk x := by
  rw [standCommandOf, parseStand_busFrame _ _ _ (by simp)]
  change (match requestKindOf k with
    | none => none
    | some rk => (echoedArm rk arm).map fun x => Instr.accept st rk x) = _
  cases requestKindOf k <;> rfl

theorem standCommandOf_refuse (k w : Byte) : standCommandOf false (busFrame true st 0x82 arm [k, w]) =
    (requestKindOf k).bind fun rk => (reasonOf w).bind fun why =>
      (echoedArm rk arm).map fun x => .refuse st rk x why := by
  rw [standCommandOf, parseStand_busFrame _ _ _ (by simp)]
  change (match requestKindOf k, reasonOf w with
    | some rk, some why => (echoedArm rk arm).map fun x => Instr.refuse st rk x why
    | _, _ => none) = _
  cases requestKindOf k <;> cases reasonOf w <;> rfl

theorem standCommandOf_attention {p : List Byte} (hp : p.length ≤ 11) :
    standCommandOf granted (busFrame true st 0x90 arm p) = attentionOf st arm p := by
  rw [standCommandOf, parseStand_busFrame _ _ _ hp]
  rfl

theorem standCommandOf_response {p : List Byte} (hp : p.length ≤ 11) :
    standCommandOf granted (busFrame true st 0xA0 arm p) = responseOf st arm p := by
  rw [standCommandOf, parseStand_busFrame _ _ _ hp]
  rfl

theorem standCommandOf_armLoaded :
    standCommandOf granted (busFrame true st 0xB0 arm []) = (armOf arm).map fun x => .armLoaded st x := by
  rw [standCommandOf, parseStand_busFrame _ _ _ (by simp)]
  rfl

theorem standCommandOf_armEmptied :
    standCommandOf granted (busFrame true st 0xB1 arm []) = (armOf arm).map fun x => .armEmptied st x := by
  rw [standCommandOf, parseStand_busFrame _ _ _ (by simp)]
  rfl

theorem standCommandOf_cutConfirmed :
    standCommandOf granted (busFrame true st 0xB2 0 []) = some (.cutConfirmed st) := by
  rw [standCommandOf, parseStand_busFrame _ _ _ (by simp)]
  rfl

theorem standCommandOf_queryArm : standCommandOf granted (busFrame true st 0xC0 arm []) =
    if arm == 0 then some (.queryArm st none) else (armOf arm).map fun x => .queryArm st (some x) := by
  rw [standCommandOf, parseStand_busFrame _ _ _ (by simp)]
  rfl

end Kinds

/-! ## The payloads of ATTENTION and RESPONSE -/

section Payloads

variable (st : StandId)

theorem attentionOf_indexDone (x y z : SpiderPos) :
    attentionOf st 0 [1, spiderByte x, spiderByte y, spiderByte z] = some (.indexDone st x y z) := by
  simp [attentionOf, positionOf_spiderByte]

theorem attentionOf_verifyDone (arm : Arm) :
    attentionOf st (armByte (some arm)) [2] = some (.verifyDone st arm) := by
  simp [attentionOf, armOf_armByte]

theorem attentionOf_armHome : attentionOf st 0 [3] = some (.armHome st) := by simp [attentionOf]

theorem responseOf_gauge (arm : Arm) (d : BitVec 16) :
    responseOf st (armByte (some arm)) (0x30 :: beBytes 2 d.toNat) = some (.response st (.gauge arm d)) := by
  have bytes : beBytes 2 d.toNat = [BitVec.ofNat 8 (d.toNat / 256), BitVec.ofNat 8 d.toNat] := rfl
  simp only [bytes, responseOf, armOf_armByte, ofBytes_two, BEq.rfl, if_true, Option.map_some]

theorem responseOf_status (x y z : ArmStatus) :
    responseOf st 0 [0x31, armStatusByte x, armStatusByte y, armStatusByte z] =
      some (.response st (.status x y z)) := by
  simp [responseOf, armStatusOf_armStatusByte]

end Payloads

/-! ## The messages that are no answer to a request -/

/-- The message is one of the two answers to a request (R142). -/
def isAnswer : Instr → Bool
  | .accept .. | .refuse .. => true
  | _ => false

/-- A message that is no answer is read alike in a grant exchange and outside (R147). -/
theorem standCommandOf_of_not_answer {c : Instr} {bytes : List Byte} (ha : isAnswer c = false)
    (hf : standFrameOf c = some bytes) (granted : Bool) : standCommandOf granted bytes = some c := by
  cases c with
  | accept | refuse => cases ha
  | response st body =>
    cases body with
    | gauge arm d => cases hf; rw [standCommandOf_response _ _ _ (by simp), responseOf_gauge]
    | status x y z => cases hf; rw [standCommandOf_response _ _ _ (by simp), responseOf_status]
  | indexDone st x y z => cases hf; rw [standCommandOf_attention _ _ _ (by simp), attentionOf_indexDone]
  | verifyDone st arm => cases hf; rw [standCommandOf_attention _ _ _ (by simp), attentionOf_verifyDone]
  | armHome st => cases hf; rw [standCommandOf_attention _ _ _ (by simp), attentionOf_armHome]
  | armLoaded st arm => cases hf; rw [standCommandOf_armLoaded, armOf_armByte]; rfl
  | armEmptied st arm => cases hf; rw [standCommandOf_armEmptied, armOf_armByte]; rfl
  | cutConfirmed st => cases hf; rw [standCommandOf_cutConfirmed]
  | queryArm st arm =>
    cases hf
    rw [standCommandOf_queryArm]
    cases arm with
    | none => rfl
    | some x => rw [armByte_ne_zero, armOf_armByte]; rfl
  | _ => cases hf

/-- Settles O5: an answer's kind, arm and reason are read back from its frame outside a grant exchange, and every
other message in both exchanges. -/
theorem standFramesDecode : Obligations.StandFramesDecode := by
  intro c bytes hwf hf
  cases ha : isAnswer c with
  | false => exact ⟨standCommandOf_of_not_answer ha hf false, fun _ _ => standCommandOf_of_not_answer ha hf true⟩
  | true =>
    cases c with
    | accept st k arm =>
      cases hf
      refine ⟨?_, fun h => absurd rfl (h st k arm)⟩
      rw [standCommandOf_accept, requestKindOf_kindByte, Option.bind_some, echoedArm_armByte hwf]
      rfl
    | refuse st k arm why =>
      cases hf
      refine ⟨?_, fun _ h => absurd rfl (h st k arm why)⟩
      rw [standCommandOf_refuse, requestKindOf_kindByte, Option.bind_some, reasonOf_reasonByte,
        Option.bind_some, echoedArm_armByte hwf]
      rfl
    | _ => cases ha

end Sys2Proof.Machine
end

section
/-! The scan's starts (R134, R135), the arbiter's turns (R140, R141), and the console's SCAN MODE and RESTART (R187
to R189). -/

namespace Sys2Proof.Machine

open Sys2Proof

/-! ## The scan's starts -/

section Scan

variable {s : State}

/-- The line rests in quiet mode: a call or the quiet timer may start a scan (R135). -/
theorem restsQuiet_iff : (s.bus.quiet && s.bus.scan.isNone) = true ↔ s.bus.quiet = true ∧ s.bus.scan = none := by
  simp

/-- A scan started in quiet mode has the quiet-mode flag in its START slot (R153). -/
theorem startScan_of_quiet (h : s.bus.quiet = true) :
    startScan s = { s with bus := { s.bus with scan := some 1 } } := by
  simp [startScan, setBus, startSlot, h]

/-- The quiet timer runs from the last END slot while the line rests in quiet mode (R135). -/
theorem quietEnd_eq {e : Nat} (quiet : s.bus.quiet = true) (rests : s.bus.scan = none)
    (ended : s.bus.lastEnd = some e) : quietEnd s = some (e + 100) := by
  simp [quietEnd, quiet, rests, ended, quietMs]

end Scan

/-- Settles O18: each of the three events starts the scan on the line at rest, with the quiet-mode flag. -/
theorem scansStart : Obligations.ScansStart := by
  refine ⟨fun s held => if_pos held, fun s quiet rests => ?_, fun s runs => ?_, fun s e quiet rests ended => ?_⟩
  · rw [← startScan_of_quiet quiet]
    exact if_pos (restsQuiet_iff.2 ⟨quiet, rests⟩)
  · refine if_neg fun rest => ?_
    obtain ⟨quiet, rests⟩ := restsQuiet_iff.1 rest
    rcases runs with loud | runs
    · exact absurd (loud.symm.trans quiet) Bool.false_ne_true
    · exact runs rests
  · change execQuietTimer s = _
    rw [execQuietTimer, quietEnd_eq quiet rests ended]
    exact congrArg Host.Outcome.next (startScan_of_quiet (s := reachTime (e + 100) s) quiet)

/-! ## The arbiter's turns -/

section Turns

variable {s : State} {st : StandId}

theorem anyBid_iff : anyBid s = true ↔ ∃ x, vget s.bus.bids x = true := by simp [anyBid]

theorem anySendable_iff : (indices 8).any (sendable s) = true ↔ ∃ x, vget s.bus.queues x ≠ [] := by
  simp [sendable]

/-- On a FREE pair a grant turn is made when a stand bids and the last turn was a request or nothing is queued
(R140). -/
theorem arbitrate_grants (hf : s.bus.pair = .free) (bids : ∃ x, vget s.bus.bids x = true)
    (hg : s.bus.lastTurn = .request ∨ ∀ x, vget s.bus.queues x = []) : arbitrate s = grantTurn s := by
  have hb := anyBid_iff.2 bids
  unfold arbitrate
  rw [hf]
  rcases hg with turn | empty
  · simp [turn, hb]
  · have unsent : (indices 8).any (sendable s) = false := by simp [sendable, empty]
    simp [unsent, hb]

/-- On a FREE pair a request turn is made when a request is queued and the last turn was none or no stand bids
(R140). -/
theorem arbitrate_requests (hf : s.bus.pair = .free) (queued : ∃ x, vget s.bus.queues x ≠ [])
    (hr : s.bus.lastTurn ≠ .request ∨ ∀ x, vget s.bus.bids x = false) : arbitrate s = requestTurn s := by
  have hq := anySendable_iff.2 queued
  unfold arbitrate
  rw [hf]
  rcases hr with turn | calm
  · simp [turn, hq]
  · have unbid : anyBid s = false := by simp [anyBid, calm]
    simp [unbid, hq]

theorem grantTurn_eq (h : (cyclic s.bus.grantPtr).find? (fun x => vget s.bus.bids x) = some st) :
    grantTurn s = { s with bus := { s.bus with
      bids := vset s.bus.bids st false, pair := .grant st (s.now + 20), lastTurn := .grant
      grantPtr := st + 1, sent := grantFrame st } } := by
  rw [grantTurn, h]
  rfl

theorem requestTurn_eq {r : Request} {rest : List Request}
    (h : (cyclic s.bus.requestPtr).find? (fun x => !(vget s.bus.queues x).isEmpty) = some st)
    (hq : vget s.bus.queues st = r :: rest) :
    requestTurn s = { s with bus := { s.bus with
      queues := vset s.bus.queues st rest, pair := .request st r false (s.now + 20)
      lastTurn := .request, requestPtr := st + 1, sent := requestFrame st r } } := by
  have head : (cyclic s.bus.requestPtr).find? (sendable s) = some st := h
  simp only [requestTurn, head, hq]
  rfl

end Turns

/-- Settles O34: which turn the arbiter makes, and then whom it takes; with nothing waiting it makes none. -/
theorem arbiterTurns : Obligations.ArbiterTurns := by
  intro s hf
  refine ⟨fun st hg hst => ?_, fun st r rest hr hst hq => ?_, fun waits => arbitrate_eq_self fun _ => waits⟩
  · rw [arbitrate_grants hf ⟨st, List.find?_some hst⟩ hg, grantTurn_eq hst]
  · rw [arbitrate_requests hf ⟨st, by simp [hq]⟩ hr, requestTurn_eq hst hq]

/-! ## SCAN MODE and RESTART -/

section Modes

variable {s : State} {ad code : Byte} {p : List Byte}

/-- An addressed frame of a code honoured in broadcast is carried out and answered as any other (R179, R180). -/
theorem takeCommand_honoured (h : Addressed s ad) (body : State → State × Reply) :
    takeCommand .honoured ad code body s = takeCommand .plain ad code body s := by
  simp [takeCommand, h.own, runAfter]

theorem scanModeBody_badValue (h : 1 < item p 0 1) : scanModeBody p s = (s, ⟨.badValue, []⟩) := if_pos h

/-- A mode taken while the line rests starts a scan when it turns continuous (R135, R187). -/
theorem scanModeBody_continuous (h : item p 0 1 = 0) : scanModeBody p s = ({ s with bus := { s.bus with
    quiet := false
    scan := if s.bus.quiet = true ∧ s.bus.scan = none then some 0 else s.bus.scan } }, ⟨.ok, []⟩) := by
  by_cases starts : s.bus.quiet = true ∧ s.bus.scan = none
  · obtain ⟨quiet, rests⟩ := starts
    simp [scanModeBody, h, takeScanMode, quiet, rests, startScan, startSlot, setBus, ok]
  · have stays : (s.bus.quiet && s.bus.scan.isNone) = false := by
      rw [← Bool.not_eq_true, restsQuiet_iff]; exact starts
    simp [scanModeBody, h, takeScanMode, stays, starts, setBus, ok]

theorem scanModeBody_quiet (h : item p 0 1 = 1) :
    scanModeBody p s = ({ s with bus := { s.bus with quiet := true } }, ⟨.ok, []⟩) := by
  simp [scanModeBody, h, takeScanMode, setBus, ok]

/-- An addressed SCAN MODE leaves the state of its body, answered. -/
theorem exec_scanMode {t : State} {x : Status} (h : Addressed s ad) (hp : p.length = 1)
    (hb : scanModeBody p (endParamRun s) = (t, ⟨x, []⟩)) (hr : t.port.run = none) :
    exec (.scanMode ad p) s = .next { t with port := answering t.port 0x50 x [] } := by
  rw [← takeCommand_answers h hp hb hr, ← takeCommand_honoured h]
  rfl

/-- What RESTART is refused for (R188). -/
def InProgress (s : State) : Prop :=
  (∃ i row, vget s.rows i = some row ∧ row.state.committed = true) ∨
    ∃ st, indexInProgress s st = true ∨ vget s.verifies st ≠ none ∨
      (∃ r ∈ vget s.bus.queues st, r.kind = .retract) ∨ inExchange s st .retract = true

theorem restartRefused_iff : restartRefused s = true ↔ InProgress s := by
  simp [restartRefused, InProgress, inQueue, Option.any_eq_true, Option.isSome_iff_ne_none, or_assoc]

theorem restartBody_refused (h : InProgress s) : restartBody s = (s, ⟨.wrongState, []⟩) :=
  if_pos (restartRefused_iff.2 h)

theorem restartBody_restarts (h : ¬ InProgress s) : restartBody s =
    (clearAllFlags (endParamRun (restartBus (dropTags (emptyOrders s)))), ⟨.ok, []⟩) :=
  if_neg fun hr => h (restartRefused_iff.1 hr)

end Modes

/-- Settles O60: each mode by the value named; RESTART by what is in progress. -/
theorem modeAndRestart : Obligations.ModeAndRestart := by
  intro ad p s h
  refine ⟨fun hp => ⟨fun hz => ?_, fun ho => ?_, fun hv => ?_⟩, fun refused => ?_, fun free => ?_⟩
  · have body := scanModeBody_continuous (s := endParamRun s) hz
    exact exec_scanMode h hp body rfl
  · have body := scanModeBody_quiet (s := endParamRun s) ho
    exact exec_scanMode h hp body rfl
  · have body := scanModeBody_badValue (s := endParamRun s) hv
    exact exec_scanMode (t := endParamRun s) h hp body rfl
  · have body := restartBody_refused (s := endParamRun s) refused
    exact answerCommand_answers (t := endParamRun s) h rfl body rfl
  · have body := restartBody_restarts (s := endParamRun s) free
    refine (answerCommand_answers h rfl body rfl).trans ?_
    simp only [clearAllFlags, endParamRun, restartBus, dropTags, emptyOrders, setBus, setPort, answering]
    rfl

end Sys2Proof.Machine
end

section
/-! Stand conditions and hard errors (R154, R162): each command but CLEAR STAND and power-on reset is a change that
touches no stand, followed by operations of `Keeps`. -/

namespace Sys2Proof.Machine

open Sys2Proof

/-- Every stand context is kept: no stand leaves FAULT or LOCKED_OUT, becomes OFFLINE or loses a hard error. -/
def StandsKept (s t : State) : Prop := ∀ st, StandKept (vget s.stands st) (vget t.stands st)

section Kept

variable {s t u : State}

theorem StandsKept.of_stands (h : t.stands = s.stands) : StandsKept s t := fun st => by rw [h]; exact .refl _

theorem StandsKept.refl (s : State) : StandsKept s s := .of_stands rfl

theorem StandsKept.trans (h : StandsKept s t) (k : StandsKept t u) : StandsKept s u :=
  fun st => (h st).trans (k st)

/-- A change that touches no stand, and then operations that keep them. -/
theorem Keeps.standsKept (k : Keeps u t) (h : u.stands = s.stands) : StandsKept s t :=
  (StandsKept.of_stands h).trans k.stands

theorem leaves_sameStands (h : t.stands = s.stands) : Leaves (StandsKept s) (.next t) :=
  leaves_of_next (.of_stands h)

theorem leaves_keptStands (k : Keeps u t) (h : u.stands = s.stands) : Leaves (StandsKept s) (.next t) :=
  leaves_of_next (k.standsKept h)

/-- The same with the arbiter's choice at the end. -/
theorem leaves_arbitratedStands (k : Keeps u t) (h : u.stands = s.stands) :
    Leaves (StandsKept s) (.next (arbitrate t)) := leaves_keptStands (arbitrate_keeps k) h

end Kept

/-! ## Console commands -/

section Console

/-- A command's body keeps the stands. -/
def BodyKeepsStands (body : State → State × Reply) : Prop := ∀ u, StandsKept u (body u).1

variable {body : State → State × Reply} (p : List Byte)

theorem BodyKeepsStands.of_stands (h : ∀ u, (body u).1.stands = u.stands) : BodyKeepsStands body :=
  fun u => .of_stands (h u)

theorem BodyKeepsStands.of_lookup (h : ∀ u, (body u).1 = u) : BodyKeepsStands body :=
  .of_stands fun u => by rw [h]

theorem BodyKeepsStands.withLength (hb : BodyKeepsStands body) (n : Nat) :
    BodyKeepsStands (withLength n p body) := by
  intro u
  unfold Machine.withLength
  split
  · exact hb u
  · exact .refl u

/-- A frame does to the stands what its body does, or nothing. -/
theorem takeCommand_standsKept (hb : BodyKeepsStands body) (k : FrameClass) (a c : Byte) (s : State) :
    StandsKept s (takeCommand k a c body s) := by
  have run : StandsKept s (runAfter k s) := by cases k <;> exact .of_stands rfl
  have carried : StandsKept s (body (runAfter k s)).1 := run.trans (hb _)
  unfold takeCommand
  split
  · exact .refl s
  · split
    · split
      · exact .refl s
      · exact carried.trans (.of_stands rfl)
    · split
      · exact carried
      · exact run

theorem BodyKeepsStands.answer (hb : BodyKeepsStands body) (k : FrameClass) (a c : Byte) (s : State) :
    Leaves (StandsKept s) (answerCommand k a c body s) := leaves_of_next (takeCommand_standsKept hb k a c s)

theorem BodyKeepsStands.send (hb : BodyKeepsStands body) (k : FrameClass) (a c : Byte) (s : State) :
    Leaves (StandsKept s) (answerAndSend k a c body s) :=
  leaves_of_next ((takeCommand_standsKept hb k a c s).trans (arbitrate_keeps (.refl _)).stands)

theorem enterReelBody_standsKept : BodyKeepsStands (enterReelBody p) := fun u => by
  rcases enterReelBody_cases p u with e | ⟨i, x, -, -, e⟩ <;> rw [e] <;> exact .of_stands rfl

theorem mountReelBody_standsKept : BodyKeepsStands (mountReelBody p) := .of_stands fun u => by
  unfold mountReelBody
  (repeat' split) <;> rfl

theorem preparedBody_standsKept : BodyKeepsStands (preparedBody p) := by
  intro u
  unfold preparedBody
  (repeat' split) <;> try exact .refl u
  exact (declare_keeps (.refl (setReel u _ _))).standsKept rfl

theorem amendReelBody_standsKept : BodyKeepsStands (amendReelBody p) := fun u => by
  rcases amendReelBody_cases p u with e | ⟨i, r, y, -, -, e⟩ <;> rw [e] <;> exact .of_stands rfl

theorem retireReelBody_standsKept : BodyKeepsStands (retireReelBody p) := .of_stands fun u => by
  unfold retireReelBody
  (repeat' split) <;> rfl

theorem threadReelBody_standsKept : BodyKeepsStands (threadReelBody p) := .of_stands fun u => by
  unfold threadReelBody
  (repeat' split) <;> rfl

theorem stopReelBody_standsKept : BodyKeepsStands (stopReelBody p) := by
  intro u
  unfold stopReelBody
  dsimp only
  (repeat' split) <;> try exact .refl u
  exact (cancelStopped_keeps (stopTracker_keeps (.refl (setReel u _ _)))).standsKept rfl

theorem orderSpliceBody_standsKept : BodyKeepsStands (orderSpliceBody p) := fun u => by
  rcases orderSpliceBody_cases p u with e | ⟨i, row, -, -, -, e⟩ <;> rw [e]
  · exact .refl u
  · exact (createOrder_keeps i row u).standsKept rfl

theorem withOrder_standsKept {f : RowId → OrderRow → State → State × Reply}
    (hf : ∀ i row, BodyKeepsStands (f i row)) : BodyKeepsStands (withOrder p f) := by
  intro u
  unfold withOrder
  dsimp only
  (repeat' split) <;> try exact .refl u
  exact hf _ _ u

theorem confirmBody_standsKept : BodyKeepsStands (confirmBody p) := by
  refine withOrder_standsKept p fun i row u => ?_
  unfold confirmRow
  split
  case h_1 => exact .of_stands rfl
  case h_2 => exact (testOrder_keeps (raiseRow_keeps (.refl (setRow u i _)))).standsKept rfl
  all_goals exact .refl u

theorem cancelOrderBody_standsKept : BodyKeepsStands (cancelOrderBody p) := by
  refine withOrder_standsKept p fun i row u => ?_
  unfold cancelRow
  split
  case h_1 | h_2 | h_3 | h_4 => exact (closeOrder_keeps (.refl u)).stands
  all_goals exact .refl u

theorem releaseOrderBody_standsKept : BodyKeepsStands (releaseOrderBody p) := fun u => by
  rcases releaseOrderBody_cases p u with e | ⟨i, st, e⟩ <;> rw [e]
  · exact .refl u
  · exact (raiseRow_keeps (.refl (setRow u i none))).standsKept rfl

theorem indexStandBody_standsKept : BodyKeepsStands (indexStandBody p) := .of_stands fun u => by
  unfold indexStandBody
  (repeat' split) <;> rfl

theorem writeParam_standsKept (x : Target) (i v : Nat) (u : State) : StandsKept u (writeParam x i v u).1 := by
  unfold writeParam writeStand
  dsimp only
  (repeat' split) <;> try exact .of_stands rfl
  exact (ite_keeps (evaluate_keeps (.refl (storeLine _ _ _ u))) (.refl _)).standsKept rfl

theorem writeRun_standsKept (x : Target) (i : Nat) (vs : List Nat) (u : State) :
    StandsKept u (writeRun x i vs u).1 := by
  induction vs generalizing i u with
  | nil => exact .refl u
  | cons v vs ih => exact (writeParam_standsKept x i v u).trans (ih (i + 1) _)

theorem setParameterBody_standsKept : BodyKeepsStands (setParameterBody p) := by
  intro u
  unfold setParameterBody
  split
  · exact .refl u
  · exact writeParam_standsKept _ _ _ u

theorem parameterRunBody_standsKept : BodyKeepsStands (parameterRunBody p) := .of_stands fun u => by
  unfold parameterRunBody
  split <;> rfl

theorem dataBody_standsKept : BodyKeepsStands (dataBody p) := by
  intro u
  unfold dataBody
  (repeat' split) <;> try exact .refl u
  exact (writeRun_standsKept _ _ _ u).trans (.of_stands rfl)

theorem scanModeBody_standsKept : BodyKeepsStands (scanModeBody p) := .of_stands fun u => by
  unfold scanModeBody takeScanMode
  dsimp only
  (repeat' split) <;> rfl

theorem restartBody_standsKept : BodyKeepsStands restartBody := .of_stands fun u => by
  unfold restartBody
  split <;> rfl

end Console

/-! ## Events -/

section Events

variable {s : State} (st : StandId) (arm : Arm)

theorem execResetRelease_standsKept : Leaves (StandsKept s) (execResetRelease s) := by
  unfold execResetRelease
  split <;> exact leaves_sameStands rfl

theorem execSpeedWindowEnd_standsKept (l : LineId) : Leaves (StandsKept s) (execSpeedWindowEnd l s) := by
  rw [show execSpeedWindowEnd l s = .next (arbitrate (windowEnded l s)) from exec_speedWindowEnd l s]
  exact leaves_keptStands (windowEnded_keeps l s) (windowState_onlyIn l s .stands (by simp))

theorem execPulseEnd_standsKept (o : OutputLine) : Leaves (StandsKept s) (execPulseEnd st o s) := by
  unfold execPulseEnd
  split <;> exact leaves_sameStands rfl

theorem execRevolutionMark_standsKept : Leaves (StandsKept s) (execRevolutionMark st arm s) := by
  unfold execRevolutionMark
  dsimp only
  split
  · exact leaves_keptStands (verifyMark_keeps (.refl (setArmContext s st arm _))) rfl
  · exact leaves_arbitratedStands (verifyMark_keeps (sequencerInterval_keeps
      (trackerInterval_keeps (.refl (setArmContext s st arm _))))) rfl

theorem execTapeMark_standsKept : Leaves (StandsKept s) (execTapeMark st s) := by
  unfold execTapeMark
  split
  · exact leaves_sameStands rfl
  · exact leaves_arbitratedStands (sequencerTape_keeps (.refl (setArmContext s st _ _))) rfl

theorem execScanCall_standsKept : Leaves (StandsKept s) (execScanCall s) := by
  unfold execScanCall
  split <;> exact leaves_sameStands rfl

theorem execQuietTimer_standsKept : Leaves (StandsKept s) (execQuietTimer s) := by
  unfold execQuietTimer
  split <;> exact leaves_sameStands rfl

/-- A reading takes an OFFLINE stand ONLINE or an ONLINE stand to FAULT, and hard errors are only added (R155,
R156). -/
theorem execScanEnd_standsKept (slots : Vector Byte 8) : Leaves (StandsKept s) (execScanEnd slots s) := by
  unfold execScanEnd
  split
  · exact leaves_arbitratedStands (handReadings_keeps (.refl (endScan slots s))) rfl
  · exact leaves_sameStands rfl

/-- The stop hold locks out an ONLINE stand alone; any other loses its timer and nothing else (R164). -/
theorem execStopHoldTimerEnd_standsKept : Leaves (StandsKept s) (execStopHoldTimerEnd st s) := by
  unfold execStopHoldTimerEnd
  dsimp only
  split
  · exact leaves_sameStands rfl
  · next e _ =>
    split
    · next ho =>
      exact leaves_arbitratedStands (leaveService_keeps (.refl (reachTime e s)) (eq_of_beq ho) (by decide)) rfl
    · have ended : StandKept (vget s.stands st) { vget s.stands st with stopHold := none } :=
        ⟨id, id, id, fun _ held => held⟩
      exact leaves_keptStands (setStand_keeps (.refl (reachTime e s)) ended) rfl

theorem execAccept_standsKept (k : RequestKind) (x : Option Arm) :
    Leaves (StandsKept s) (execAccept st k x s) := by
  unfold execAccept
  split
  · exact leaves_sameStands rfl
  · exact leaves_arbitratedStands (ite_keeps (.refl (freePair s)) (acceptRequest_keeps (.refl _))) rfl

theorem execRefuse_standsKept (k : RequestKind) (x : Option Arm) (why : StandReason) :
    Leaves (StandsKept s) (execRefuse st k x why s) := by
  unfold execRefuse
  split
  · exact leaves_sameStands rfl
  · exact leaves_arbitratedStands
      (ite_keeps (.refl (freePair s)) (refuseRequest_keeps (writeRefusal_keeps (.refl _)))) rfl

theorem execReplyTimeEnd_standsKept : Leaves (StandsKept s) (execReplyTimeEnd s) := by
  unfold execReplyTimeEnd
  split
  · exact leaves_arbitratedStands (takeHardError_keeps (.refl (freePair (reachTime _ s)))) rfl
  · exact leaves_sameStands rfl

theorem execGrantLapse_standsKept : Leaves (StandsKept s) (execGrantLapse s) := by
  unfold execGrantLapse
  split
  · next lim _ =>
    have freed : Keeps (reachTime lim s) (freePair (reachTime lim s)) := freePair_keeps (.refl _)
    exact leaves_arbitratedStands
      (ite_keeps (setLapses_keeps freed) (takeHardError_keeps (setLapses_keeps freed))) rfl
  · exact leaves_sameStands rfl

theorem execReadLimit_standsKept (k : ReadKind) : Leaves (StandsKept s) (execReadLimit st k s) := by
  unfold execReadLimit
  split
  · exact leaves_sameStands rfl
  · cases k <;> exact leaves_keptStands (writeOutcome_keeps (.refl (closeRead st _ (reachTime _ s)))) rfl

theorem execIndexTimeout_standsKept : Leaves (StandsKept s) (execIndexTimeout st s) := by
  unfold execIndexTimeout
  split
  · exact leaves_sameStands rfl
  · exact leaves_arbitratedStands
      (takeHardError_keeps (writeOutcome_keeps (.refl (setIndexRecord st none (reachTime _ s))))) rfl

theorem execVerifyTimeout_standsKept : Leaves (StandsKept s) (execVerifyTimeout st s) := by
  unfold execVerifyTimeout
  split
  · exact leaves_sameStands rfl
  · split
    · exact leaves_sameStands rfl
    · exact leaves_arbitratedStands
        (ite_keeps (repeatRun_keeps (.refl (reachTime _ s))) (finishRun_keeps (.refl _))) rfl

theorem execCutWaitEnd_standsKept : Leaves (StandsKept s) (execCutWaitEnd st s) := by
  unfold execCutWaitEnd
  split
  · exact leaves_sameStands rfl
  · exact leaves_arbitratedStands (tryCloseDone_keeps (modSequencer_keeps (.refl (reachTime _ s)))) rfl

theorem execRetractTimeout_standsKept : Leaves (StandsKept s) (execRetractTimeout st s) := by
  unfold execRetractTimeout
  split
  · exact leaves_sameStands rfl
  · exact leaves_arbitratedStands (endRetractWait_keeps (.refl (reachTime _ s))) rfl

/-- A message on a grant does to the stands what it hands on does (R147). -/
theorem onGrant_standsKept {f : State → State} (hf : Keeps s (f s)) :
    Leaves (StandsKept s) (onGrant st f s) := by
  unfold onGrant
  split
  · exact leaves_arbitratedStands (endGrant_keeps hf) rfl
  · exact leaves_sameStands rfl

theorem execIndexDone_standsKept (x y z : SpiderPos) : Leaves (StandsKept s) (execIndexDone st x y z s) :=
  onGrant_standsKept st (ite_keeps (takeIndexDone_keeps (setIndexRecord_keeps (.refl s))) (.refl s))

theorem execArmHome_standsKept : Leaves (StandsKept s) (execArmHome st s) :=
  onGrant_standsKept st (ite_keeps (endRetract_keeps (.refl s)) (.refl s))

theorem execCutConfirmed_standsKept : Leaves (StandsKept s) (execCutConfirmed st s) :=
  onGrant_standsKept st (ite_keeps (tryCloseDone_keeps (modSequencer_keeps (.refl s))) (.refl s))

theorem execArmLoaded_standsKept : Leaves (StandsKept s) (execArmLoaded st arm s) :=
  onGrant_standsKept st (raiseStand_keeps (setLoaded_keeps (.refl s)))

theorem execArmEmptied_standsKept : Leaves (StandsKept s) (execArmEmptied st arm s) :=
  onGrant_standsKept st (raiseStand_keeps (armReportedEmpty_keeps (.refl s)))

theorem execQueryArm_standsKept (x : Option Arm) : Leaves (StandsKept s) (execQueryArm st x s) :=
  onGrant_standsKept st (setBus_keeps (.refl s) ⟨rfl, rfl, rfl, rfl⟩ id)

end Events

/-! ## Every command -/

/-- Settles O7: a command changes nothing of the stands, or it changes them by operations that lead only into
FAULT and LOCKED_OUT, out of OFFLINE, and to more hard errors. -/
theorem onlyClearStandLeavesFault : Obligations.OnlyClearStandLeavesFault := by
  intro c s t hclear hpower h
  suffices Leaves (StandsKept s) (exec c s) from this t h
  clear h
  cases c with
  | powerOnReset a => exact absurd rfl (hpower a)
  | clearStand a p => exact absurd rfl (hclear a p)
  | resetRelease => exact execResetRelease_standsKept
  | encoderPulse l => exact leaves_arbitratedStands (reportLine_keeps (.refl (setLine s l _))) rfl
  | speedWindowEnd l => exact execSpeedWindowEnd_standsKept l
  | commitPointReport r => exact leaves_arbitratedStands (reportCommitPoint_keeps (.refl s)) rfl
  | latestCommitPointReport r => exact leaves_arbitratedStands (reportLatest_keeps (.refl s)) rfl
  | matchDeadlineReport st => exact leaves_arbitratedStands (reportDeadline_keeps (.refl s)) rfl
  | pastePositionReport st => exact leaves_arbitratedStands (reportPaste_keeps (.refl s)) rfl
  | knifePositionReport st => exact leaves_arbitratedStands (reportKnife_keeps (.refl s)) rfl
  | staleLimitReached st arm => exact leaves_keptStands (reportStale_keeps (.refl s)) rfl
  | pulseEnd st o => exact execPulseEnd_standsKept st o
  | revolutionMark st arm => exact execRevolutionMark_standsKept st arm
  | tapeMark st => exact execTapeMark_standsKept st
  | scanCall => exact execScanCall_standsKept
  | quietTimer => exact execQuietTimer_standsKept
  | scanEnd slots => exact execScanEnd_standsKept slots
  | stopHoldTimerEnd st => exact execStopHoldTimerEnd_standsKept st
  | accept st k arm => exact execAccept_standsKept st k arm
  | refuse st k arm why => exact execRefuse_standsKept st k arm why
  | replyTimeEnd => exact execReplyTimeEnd_standsKept
  | grantLapse => exact execGrantLapse_standsKept
  | readLimit st k => exact execReadLimit_standsKept st k
  | indexTimeout st => exact execIndexTimeout_standsKept st
  | verifyTimeout st => exact execVerifyTimeout_standsKept st
  | cutWaitEnd st => exact execCutWaitEnd_standsKept st
  | retractTimeout st => exact execRetractTimeout_standsKept st
  | response st b => exact onGrant_standsKept st (takeResponse_keeps (.refl s))
  | indexDone st x y z => exact execIndexDone_standsKept st x y z
  | verifyDone st arm => exact onGrant_standsKept st (takeVerifyDone_keeps (.refl s))
  | armHome st => exact execArmHome_standsKept st
  | cutConfirmed st => exact execCutConfirmed_standsKept st
  | armLoaded st arm => exact execArmLoaded_standsKept st arm
  | armEmptied st arm => exact execArmEmptied_standsKept st arm
  | queryArm st arm => exact execQueryArm_standsKept st arm
  | unroutedStandMessage st => exact onGrant_standsKept st (.refl s)
  | consoleFrameDiscarded p => exact leaves_sameStands rfl
  | answerFrameSeen a code p => exact leaves_sameStands rfl
  | answerSent => exact leaves_sameStands rfl
  | unknownCode a code p => exact BodyKeepsStands.answer (.of_lookup fun _ => rfl) _ a code s
  | enterReel a p => exact ((enterReelBody_standsKept p).withLength p _).answer _ a _ s
  | mountReel a p => exact ((mountReelBody_standsKept p).withLength p _).send _ a _ s
  | prepared a p => exact ((preparedBody_standsKept p).withLength p _).send _ a _ s
  | amendReel a p => exact ((amendReelBody_standsKept p).withLength p _).answer _ a _ s
  | retireReel a p => exact ((retireReelBody_standsKept p).withLength p _).answer _ a _ s
  | readReel a p => exact ((BodyKeepsStands.of_lookup (readReelBody_state p)).withLength p _).answer _ a _ s
  | readArm a p => exact ((BodyKeepsStands.of_lookup (readArmBody_state p)).withLength p _).answer _ a _ s
  | listReels a p => exact ((BodyKeepsStands.of_lookup (listReelsBody_state p)).withLength p _).answer _ a _ s
  | threadReel a p => exact ((threadReelBody_standsKept p).withLength p _).answer _ a _ s
  | stopReel a p => exact ((stopReelBody_standsKept p).withLength p _).send _ a _ s
  | orderSplice a p => exact ((orderSpliceBody_standsKept p).withLength p _).send _ a _ s
  | confirm a p => exact ((confirmBody_standsKept p).withLength p _).send _ a _ s
  | cancelOrder a p => exact ((cancelOrderBody_standsKept p).withLength p _).send _ a _ s
  | releaseOrder a p => exact ((releaseOrderBody_standsKept p).withLength p _).answer _ a _ s
  | readOrder a p => exact ((BodyKeepsStands.of_lookup (readOrderBody_state p)).withLength p _).answer _ a _ s
  | indexStand a p => exact ((indexStandBody_standsKept p).withLength p _).send _ a _ s
  | readStand a p => exact ((BodyKeepsStands.of_lookup (readStandBody_state p)).withLength p _).answer _ a _ s
  | readLine a p => exact ((BodyKeepsStands.of_lookup (readLineBody_state p)).withLength p _).answer _ a _ s
  | setParameter a p => exact ((setParameterBody_standsKept p).withLength p _).send _ a _ s
  | readParameter a p =>
    exact ((BodyKeepsStands.of_lookup (readParameterBody_state p)).withLength p _).answer _ a _ s
  | parameterRun a p => exact ((parameterRunBody_standsKept p).withLength p _).answer _ a _ s
  | data a p => exact (dataBody_standsKept p).send _ a _ s
  | readChanges a p => exact (BodyKeepsStands.withLength p (.of_lookup fun _ => rfl) _).answer _ a _ s
  | ackChanges a p => exact (BodyKeepsStands.withLength p (.of_stands fun _ => rfl) _).answer _ a _ s
  | scanMode a p => exact ((scanModeBody_standsKept p).withLength p _).answer _ a _ s
  | restart a p => exact (restartBody_standsKept.withLength p _).answer _ a _ s

end Sys2Proof.Machine
end

section
/-! The settings in force (R171 to R174): a value is clamped as it is written, the floors in force are parameters of
the line, and no command but SET PARAMETER, DATA, a window end and power-on reset writes them. -/

namespace Sys2Proof.Machine

open Sys2Proof

/-- A change that keeps every parameter and every floor in force in its range. -/
def SettingsStay (s t : State) : Prop := SettingsInRange s.settings → SettingsInRange t.settings

section Stay

variable {s t u : State}

theorem SettingsStay.of_settings (h : t.settings = s.settings) : SettingsStay s t := fun hs => h ▸ hs

theorem SettingsStay.refl (s : State) : SettingsStay s s := id

theorem SettingsStay.trans (h : SettingsStay s t) (k : SettingsStay t u) : SettingsStay s u := k ∘ h

/-- A change that writes no setting, and then operations that keep them. -/
theorem Keeps.settingsStay (k : Keeps u t) (h : u.settings = s.settings) : SettingsStay s t :=
  .of_settings (k.settings.trans h)

theorem leaves_sameSettings (h : t.settings = s.settings) : Leaves (SettingsStay s) (.next t) :=
  leaves_of_next (.of_settings h)

theorem leaves_keptSettings (k : Keeps u t) (h : u.settings = s.settings) : Leaves (SettingsStay s) (.next t) :=
  leaves_of_next (k.settingsStay h)

/-- The same with the arbiter's choice at the end. -/
theorem leaves_arbitratedSettings (k : Keeps u t) (h : u.settings = s.settings) :
    Leaves (SettingsStay s) (.next (arbitrate t)) := leaves_keptSettings (arbitrate_keeps k) h

end Stay

/-! ## Writes of parameters and floors (R172, R174) -/

section Writes

theorem clampTo_inRange {p : ParamSpec} (h : p.lo ≤ p.hi) (v : Nat) : inRange p (clampTo p v) :=
  ⟨Nat.le_max_left .., Nat.max_le.2 ⟨h, Nat.min_le_left ..⟩⟩

theorem standSpecs_ordered : ∀ i, (vget standSpecs i).lo ≤ (vget standSpecs i).hi := by decide

theorem lineSpecs_ordered : ∀ i, (vget lineSpecs i).lo ≤ (vget lineSpecs i).hi := by decide

variable (u : State)

theorem storeStand_settingsStay (st : StandId) (i : Fin 14) (v : Nat) :
    SettingsStay u (storeStand st i (clampTo (vget standSpecs i) v) u) := by
  rintro ⟨stands, rest⟩
  refine ⟨fun st' i' => ?_, rest⟩
  simp only [storeStand, setSettings_settings, vget_vset]
  split
  · rw [vget_vset]
    split
    · next e => subst e; exact clampTo_inRange (standSpecs_ordered _) v
    · exact stands st i'
  · exact stands st' i'

theorem storeLine_settingsStay (l : LineId) (i : Fin 4) (v : Nat) :
    SettingsStay u (storeLine l i (clampTo (vget lineSpecs i) v) u) := by
  rintro ⟨stands, lines, floors⟩
  refine ⟨stands, fun l' i' => ?_, floors⟩
  simp only [storeLine, setSettings_settings, vget_vset]
  split
  · rw [vget_vset]
    split
    · next e => subst e; exact clampTo_inRange (lineSpecs_ordered _) v
    · exact lines l i'
  · exact lines l' i'

/-- The floors brought in force are two parameters of the line (R174). -/
theorem windowState_settingsStay (l : LineId) : SettingsStay u (windowState l u) := by
  rintro ⟨stands, lines, floors⟩
  rw [windowState_settings]
  refine ⟨stands, lines, fun l' => ?_⟩
  simp only [vget_vset]
  split
  · exact ⟨lines l 1, lines l 2⟩
  · exact floors l'

theorem writeStand_settingsStay (st : StandId) (i : Fin 14) (v : Nat) :
    SettingsStay u (writeStand st i v u).1 := by
  unfold writeStand
  dsimp only
  split
  · split
    · exact .refl u
    · split
      · exact .refl u
      · exact (storeStand_settingsStay u st i v).trans (.of_settings rfl)
  · exact storeStand_settingsStay u st i v

theorem writeLine_settingsStay (l : LineId) (i : Fin 4) (v : Nat) : SettingsStay u (writeLine l i v u) :=
  (storeLine_settingsStay u l i v).trans
    ((ite_keeps (evaluate_keeps (.refl _)) (.refl _) : Keeps _ (writeLine l i v u)).settingsStay rfl)

theorem writeParam_settingsStay (x : Target) (i v : Nat) : SettingsStay u (writeParam x i v u).1 := by
  unfold writeParam
  split <;> split
  · exact writeStand_settingsStay u _ _ _
  · exact .refl u
  · exact writeLine_settingsStay u _ _ _
  · exact .refl u

theorem writeRun_settingsStay (x : Target) (i : Nat) (vs : List Nat) :
    SettingsStay u (writeRun x i vs u).1 := by
  induction vs generalizing i u with
  | nil => exact .refl u
  | cons v vs ih => exact (writeParam_settingsStay u x i v).trans (ih _ (i + 1))

end Writes

/-! ## Console commands -/

section Console

/-- A command's body keeps the settings in range. -/
def BodyKeepsSettings (body : State → State × Reply) : Prop := ∀ u, SettingsStay u (body u).1

variable {body : State → State × Reply} (p : List Byte)

theorem BodyKeepsSettings.of_settings (h : ∀ u, (body u).1.settings = u.settings) : BodyKeepsSettings body :=
  fun u => .of_settings (h u)

theorem BodyKeepsSettings.of_lookup (h : ∀ u, (body u).1 = u) : BodyKeepsSettings body :=
  .of_settings fun u => by rw [h]

theorem BodyKeepsSettings.withLength (hb : BodyKeepsSettings body) (n : Nat) :
    BodyKeepsSettings (withLength n p body) := by
  intro u
  unfold Machine.withLength
  split
  · exact hb u
  · exact .refl u

/-- A frame does to the settings what its body does, or nothing. -/
theorem takeCommand_settingsStay (hb : BodyKeepsSettings body) (k : FrameClass) (a c : Byte) (s : State) :
    SettingsStay s (takeCommand k a c body s) := by
  have run : SettingsStay s (runAfter k s) := by cases k <;> exact .of_settings rfl
  have carried : SettingsStay s (body (runAfter k s)).1 := run.trans (hb _)
  unfold takeCommand
  split
  · exact .refl s
  · split
    · split
      · exact .refl s
      · exact carried.trans (.of_settings rfl)
    · split
      · exact carried
      · exact run

theorem BodyKeepsSettings.answer (hb : BodyKeepsSettings body) (k : FrameClass) (a c : Byte) (s : State) :
    Leaves (SettingsStay s) (answerCommand k a c body s) := leaves_of_next (takeCommand_settingsStay hb k a c s)

theorem BodyKeepsSettings.send (hb : BodyKeepsSettings body) (k : FrameClass) (a c : Byte) (s : State) :
    Leaves (SettingsStay s) (answerAndSend k a c body s) :=
  leaves_of_next ((takeCommand_settingsStay hb k a c s).trans ((arbitrate_keeps (.refl _)).settingsStay rfl))

theorem enterReelBody_settings : BodyKeepsSettings (enterReelBody p) := fun u => by
  rcases enterReelBody_cases p u with e | ⟨i, x, -, -, e⟩ <;> rw [e] <;> exact .of_settings rfl

theorem mountReelBody_settings : BodyKeepsSettings (mountReelBody p) := .of_settings fun u => by
  unfold mountReelBody
  (repeat' split) <;> rfl

theorem preparedBody_settings : BodyKeepsSettings (preparedBody p) := by
  intro u
  unfold preparedBody
  (repeat' split) <;> try exact .refl u
  exact (declare_keeps (.refl (setReel u _ _))).settingsStay rfl

theorem amendReelBody_settings : BodyKeepsSettings (amendReelBody p) := fun u => by
  rcases amendReelBody_cases p u with e | ⟨i, r, y, -, -, e⟩ <;> rw [e] <;> exact .of_settings rfl

theorem retireReelBody_settings : BodyKeepsSettings (retireReelBody p) := .of_settings fun u => by
  unfold retireReelBody
  (repeat' split) <;> rfl

theorem threadReelBody_settings : BodyKeepsSettings (threadReelBody p) := .of_settings fun u => by
  unfold threadReelBody
  (repeat' split) <;> rfl

theorem stopReelBody_settings : BodyKeepsSettings (stopReelBody p) := by
  intro u
  unfold stopReelBody
  dsimp only
  (repeat' split) <;> try exact .refl u
  exact (cancelStopped_keeps (stopTracker_keeps (.refl (setReel u _ _)))).settingsStay rfl

theorem orderSpliceBody_settings : BodyKeepsSettings (orderSpliceBody p) := fun u => by
  rcases orderSpliceBody_cases p u with e | ⟨i, row, -, -, -, e⟩ <;> rw [e]
  · exact .refl u
  · exact (createOrder_keeps i row u).settingsStay rfl

theorem withOrder_settings {f : RowId → OrderRow → State → State × Reply}
    (hf : ∀ i row, BodyKeepsSettings (f i row)) : BodyKeepsSettings (withOrder p f) := by
  intro u
  unfold withOrder
  dsimp only
  (repeat' split) <;> try exact .refl u
  exact hf _ _ u

theorem confirmBody_settings : BodyKeepsSettings (confirmBody p) := by
  refine withOrder_settings p fun i row u => ?_
  unfold confirmRow
  split
  case h_1 => exact .of_settings rfl
  case h_2 => exact (testOrder_keeps (raiseRow_keeps (.refl (setRow u i _)))).settingsStay rfl
  all_goals exact .refl u

theorem cancelOrderBody_settings : BodyKeepsSettings (cancelOrderBody p) := by
  refine withOrder_settings p fun i row u => ?_
  unfold cancelRow
  split
  case h_1 | h_2 | h_3 | h_4 => exact (closeOrder_keeps (.refl u)).settingsStay rfl
  all_goals exact .refl u

theorem releaseOrderBody_settings : BodyKeepsSettings (releaseOrderBody p) := fun u => by
  rcases releaseOrderBody_cases p u with e | ⟨i, st, e⟩ <;> rw [e]
  · exact .refl u
  · exact (raiseRow_keeps (.refl (setRow u i none))).settingsStay rfl

theorem indexStandBody_settings : BodyKeepsSettings (indexStandBody p) := .of_settings fun u => by
  unfold indexStandBody
  (repeat' split) <;> rfl

theorem settleCondition_settingsStay (st : StandId) (u : State) : SettingsStay u (settleCondition st u) := by
  unfold settleCondition
  dsimp only
  split
  · exact (raiseStand_keeps (.refl (queueRequest st _ (modStand st _ u)))).settingsStay rfl
  · split
    · exact .of_settings rfl
    · exact (faultOrder_keeps (raiseStand_keeps (.refl (modStand st _ u)))).settingsStay rfl
    · exact (raiseStand_keeps (.refl (modStand st _ u))).settingsStay rfl
    · exact (raiseStand_keeps (.refl (modStand st _ u))).settingsStay rfl

theorem clearStandBody_settings : BodyKeepsSettings (clearStandBody p) := by
  intro u
  unfold clearStandBody
  (repeat' split) <;> try exact .refl u
  exact (SettingsStay.of_settings rfl : SettingsStay u (clearContexts _ u)).trans
    (settleCondition_settingsStay _ _)

theorem setParameterBody_settings : BodyKeepsSettings (setParameterBody p) := by
  intro u
  unfold setParameterBody
  split
  · exact .refl u
  · exact writeParam_settingsStay u _ _ _

theorem parameterRunBody_settings : BodyKeepsSettings (parameterRunBody p) := .of_settings fun u => by
  unfold parameterRunBody
  split <;> rfl

theorem dataBody_settings : BodyKeepsSettings (dataBody p) := by
  intro u
  unfold dataBody
  (repeat' split) <;> try exact .refl u
  exact (writeRun_settingsStay u _ _ _).trans (.of_settings rfl)

theorem scanModeBody_settings : BodyKeepsSettings (scanModeBody p) := .of_settings fun u => by
  unfold scanModeBody takeScanMode
  dsimp only
  (repeat' split) <;> rfl

theorem restartBody_settings : BodyKeepsSettings restartBody := .of_settings fun u => by
  unfold restartBody
  split <;> rfl

end Console

/-! ## Events -/

section Events

variable {s : State} (st : StandId) (arm : Arm)

theorem execResetRelease_settings : Leaves (SettingsStay s) (execResetRelease s) := by
  unfold execResetRelease
  split <;> exact leaves_sameSettings rfl

theorem execSpeedWindowEnd_settings (l : LineId) : Leaves (SettingsStay s) (execSpeedWindowEnd l s) := by
  rw [show execSpeedWindowEnd l s = .next (arbitrate (windowEnded l s)) from exec_speedWindowEnd l s]
  exact leaves_of_next ((windowState_settingsStay s l).trans ((windowEnded_keeps l s).settingsStay rfl))

theorem execPulseEnd_settings (o : OutputLine) : Leaves (SettingsStay s) (execPulseEnd st o s) := by
  unfold execPulseEnd
  split <;> exact leaves_sameSettings rfl

theorem execRevolutionMark_settings : Leaves (SettingsStay s) (execRevolutionMark st arm s) := by
  unfold execRevolutionMark
  dsimp only
  split
  · exact leaves_keptSettings (verifyMark_keeps (.refl (setArmContext s st arm _))) rfl
  · exact leaves_arbitratedSettings (verifyMark_keeps (sequencerInterval_keeps
      (trackerInterval_keeps (.refl (setArmContext s st arm _))))) rfl

theorem execTapeMark_settings : Leaves (SettingsStay s) (execTapeMark st s) := by
  unfold execTapeMark
  split
  · exact leaves_sameSettings rfl
  · exact leaves_arbitratedSettings (sequencerTape_keeps (.refl (setArmContext s st _ _))) rfl

theorem execScanCall_settings : Leaves (SettingsStay s) (execScanCall s) := by
  unfold execScanCall
  split <;> exact leaves_sameSettings rfl

theorem execQuietTimer_settings : Leaves (SettingsStay s) (execQuietTimer s) := by
  unfold execQuietTimer
  split <;> exact leaves_sameSettings rfl

theorem execScanEnd_settings (slots : Vector Byte 8) : Leaves (SettingsStay s) (execScanEnd slots s) := by
  unfold execScanEnd
  split
  · exact leaves_arbitratedSettings (handReadings_keeps (.refl (endScan slots s))) rfl
  · exact leaves_sameSettings rfl

theorem execStopHoldTimerEnd_settings : Leaves (SettingsStay s) (execStopHoldTimerEnd st s) := by
  unfold execStopHoldTimerEnd
  dsimp only
  split
  · exact leaves_sameSettings rfl
  · next e _ =>
    split
    · next ho =>
      exact leaves_arbitratedSettings (leaveService_keeps (.refl (reachTime e s)) (eq_of_beq ho) (by decide)) rfl
    · exact leaves_sameSettings rfl

theorem execAccept_settings (k : RequestKind) (x : Option Arm) :
    Leaves (SettingsStay s) (execAccept st k x s) := by
  unfold execAccept
  split
  · exact leaves_sameSettings rfl
  · exact leaves_arbitratedSettings (ite_keeps (.refl (freePair s)) (acceptRequest_keeps (.refl _))) rfl

theorem execRefuse_settings (k : RequestKind) (x : Option Arm) (why : StandReason) :
    Leaves (SettingsStay s) (execRefuse st k x why s) := by
  unfold execRefuse
  split
  · exact leaves_sameSettings rfl
  · exact leaves_arbitratedSettings
      (ite_keeps (.refl (freePair s)) (refuseRequest_keeps (writeRefusal_keeps (.refl _)))) rfl

theorem execReplyTimeEnd_settings : Leaves (SettingsStay s) (execReplyTimeEnd s) := by
  unfold execReplyTimeEnd
  split
  · exact leaves_arbitratedSettings (takeHardError_keeps (.refl (freePair (reachTime _ s)))) rfl
  · exact leaves_sameSettings rfl

theorem execGrantLapse_settings : Leaves (SettingsStay s) (execGrantLapse s) := by
  unfold execGrantLapse
  split
  · next lim _ =>
    have freed : Keeps (reachTime lim s) (freePair (reachTime lim s)) := freePair_keeps (.refl _)
    exact leaves_arbitratedSettings
      (ite_keeps (setLapses_keeps freed) (takeHardError_keeps (setLapses_keeps freed))) rfl
  · exact leaves_sameSettings rfl

theorem execReadLimit_settings (k : ReadKind) : Leaves (SettingsStay s) (execReadLimit st k s) := by
  unfold execReadLimit
  split
  · exact leaves_sameSettings rfl
  · cases k <;> exact leaves_keptSettings (writeOutcome_keeps (.refl (closeRead st _ (reachTime _ s)))) rfl

theorem execIndexTimeout_settings : Leaves (SettingsStay s) (execIndexTimeout st s) := by
  unfold execIndexTimeout
  split
  · exact leaves_sameSettings rfl
  · exact leaves_arbitratedSettings
      (takeHardError_keeps (writeOutcome_keeps (.refl (setIndexRecord st none (reachTime _ s))))) rfl

theorem execVerifyTimeout_settings : Leaves (SettingsStay s) (execVerifyTimeout st s) := by
  unfold execVerifyTimeout
  split
  · exact leaves_sameSettings rfl
  · split
    · exact leaves_sameSettings rfl
    · exact leaves_arbitratedSettings
        (ite_keeps (repeatRun_keeps (.refl (reachTime _ s))) (finishRun_keeps (.refl _))) rfl

theorem execCutWaitEnd_settings : Leaves (SettingsStay s) (execCutWaitEnd st s) := by
  unfold execCutWaitEnd
  split
  · exact leaves_sameSettings rfl
  · exact leaves_arbitratedSettings (tryCloseDone_keeps (modSequencer_keeps (.refl (reachTime _ s)))) rfl

theorem execRetractTimeout_settings : Leaves (SettingsStay s) (execRetractTimeout st s) := by
  unfold execRetractTimeout
  split
  · exact leaves_sameSettings rfl
  · exact leaves_arbitratedSettings (endRetractWait_keeps (.refl (reachTime _ s))) rfl

/-- A message on a grant writes a setting only if what it hands on does (R147). -/
theorem onGrant_settings {f : State → State} (hf : Keeps s (f s)) :
    Leaves (SettingsStay s) (onGrant st f s) := by
  unfold onGrant
  split
  · exact leaves_arbitratedSettings (endGrant_keeps hf) rfl
  · exact leaves_sameSettings rfl

theorem execIndexDone_settings (x y z : SpiderPos) : Leaves (SettingsStay s) (execIndexDone st x y z s) :=
  onGrant_settings st (ite_keeps (takeIndexDone_keeps (setIndexRecord_keeps (.refl s))) (.refl s))

theorem execArmHome_settings : Leaves (SettingsStay s) (execArmHome st s) :=
  onGrant_settings st (ite_keeps (endRetract_keeps (.refl s)) (.refl s))

theorem execCutConfirmed_settings : Leaves (SettingsStay s) (execCutConfirmed st s) :=
  onGrant_settings st (ite_keeps (tryCloseDone_keeps (modSequencer_keeps (.refl s))) (.refl s))

theorem execArmLoaded_settings : Leaves (SettingsStay s) (execArmLoaded st arm s) :=
  onGrant_settings st (raiseStand_keeps (setLoaded_keeps (.refl s)))

theorem execArmEmptied_settings : Leaves (SettingsStay s) (execArmEmptied st arm s) :=
  onGrant_settings st (raiseStand_keeps (armReportedEmpty_keeps (.refl s)))

theorem execQueryArm_settings (x : Option Arm) : Leaves (SettingsStay s) (execQueryArm st x s) :=
  onGrant_settings st (setBus_keeps (.refl s) ⟨rfl, rfl, rfl, rfl⟩ id)

end Events

/-! ## Every command and every step -/

theorem exec_settings (c : Instr) (s : State) : Leaves (SettingsStay s) (exec c s) := by
  cases c with
  | powerOnReset a => exact leaves_of_next fun _ => reset_settingsInRange
  | resetRelease => exact execResetRelease_settings
  | encoderPulse l => exact leaves_arbitratedSettings (reportLine_keeps (.refl (setLine s l _))) rfl
  | speedWindowEnd l => exact execSpeedWindowEnd_settings l
  | commitPointReport r => exact leaves_arbitratedSettings (reportCommitPoint_keeps (.refl s)) rfl
  | latestCommitPointReport r => exact leaves_arbitratedSettings (reportLatest_keeps (.refl s)) rfl
  | matchDeadlineReport st => exact leaves_arbitratedSettings (reportDeadline_keeps (.refl s)) rfl
  | pastePositionReport st => exact leaves_arbitratedSettings (reportPaste_keeps (.refl s)) rfl
  | knifePositionReport st => exact leaves_arbitratedSettings (reportKnife_keeps (.refl s)) rfl
  | staleLimitReached st arm => exact leaves_keptSettings (reportStale_keeps (.refl s)) rfl
  | pulseEnd st o => exact execPulseEnd_settings st o
  | revolutionMark st arm => exact execRevolutionMark_settings st arm
  | tapeMark st => exact execTapeMark_settings st
  | scanCall => exact execScanCall_settings
  | quietTimer => exact execQuietTimer_settings
  | scanEnd slots => exact execScanEnd_settings slots
  | stopHoldTimerEnd st => exact execStopHoldTimerEnd_settings st
  | accept st k arm => exact execAccept_settings st k arm
  | refuse st k arm why => exact execRefuse_settings st k arm why
  | replyTimeEnd => exact execReplyTimeEnd_settings
  | grantLapse => exact execGrantLapse_settings
  | readLimit st k => exact execReadLimit_settings st k
  | indexTimeout st => exact execIndexTimeout_settings st
  | verifyTimeout st => exact execVerifyTimeout_settings st
  | cutWaitEnd st => exact execCutWaitEnd_settings st
  | retractTimeout st => exact execRetractTimeout_settings st
  | response st b => exact onGrant_settings st (takeResponse_keeps (.refl s))
  | indexDone st x y z => exact execIndexDone_settings st x y z
  | verifyDone st arm => exact onGrant_settings st (takeVerifyDone_keeps (.refl s))
  | armHome st => exact execArmHome_settings st
  | cutConfirmed st => exact execCutConfirmed_settings st
  | armLoaded st arm => exact execArmLoaded_settings st arm
  | armEmptied st arm => exact execArmEmptied_settings st arm
  | queryArm st arm => exact execQueryArm_settings st arm
  | unroutedStandMessage st => exact onGrant_settings st (.refl s)
  | consoleFrameDiscarded p => exact leaves_sameSettings rfl
  | answerFrameSeen a code p => exact leaves_sameSettings rfl
  | answerSent => exact leaves_sameSettings rfl
  | unknownCode a code p => exact BodyKeepsSettings.answer (.of_lookup fun _ => rfl) _ a code s
  | enterReel a p => exact ((enterReelBody_settings p).withLength p _).answer _ a _ s
  | mountReel a p => exact ((mountReelBody_settings p).withLength p _).send _ a _ s
  | prepared a p => exact ((preparedBody_settings p).withLength p _).send _ a _ s
  | amendReel a p => exact ((amendReelBody_settings p).withLength p _).answer _ a _ s
  | retireReel a p => exact ((retireReelBody_settings p).withLength p _).answer _ a _ s
  | readReel a p => exact ((BodyKeepsSettings.of_lookup (readReelBody_state p)).withLength p _).answer _ a _ s
  | readArm a p => exact ((BodyKeepsSettings.of_lookup (readArmBody_state p)).withLength p _).answer _ a _ s
  | listReels a p => exact ((BodyKeepsSettings.of_lookup (listReelsBody_state p)).withLength p _).answer _ a _ s
  | threadReel a p => exact ((threadReelBody_settings p).withLength p _).answer _ a _ s
  | stopReel a p => exact ((stopReelBody_settings p).withLength p _).send _ a _ s
  | orderSplice a p => exact ((orderSpliceBody_settings p).withLength p _).send _ a _ s
  | confirm a p => exact ((confirmBody_settings p).withLength p _).send _ a _ s
  | cancelOrder a p => exact ((cancelOrderBody_settings p).withLength p _).send _ a _ s
  | releaseOrder a p => exact ((releaseOrderBody_settings p).withLength p _).answer _ a _ s
  | readOrder a p => exact ((BodyKeepsSettings.of_lookup (readOrderBody_state p)).withLength p _).answer _ a _ s
  | indexStand a p => exact ((indexStandBody_settings p).withLength p _).send _ a _ s
  | clearStand a p => exact ((clearStandBody_settings p).withLength p _).send _ a _ s
  | readStand a p => exact ((BodyKeepsSettings.of_lookup (readStandBody_state p)).withLength p _).answer _ a _ s
  | readLine a p => exact ((BodyKeepsSettings.of_lookup (readLineBody_state p)).withLength p _).answer _ a _ s
  | setParameter a p => exact ((setParameterBody_settings p).withLength p _).send _ a _ s
  | readParameter a p =>
    exact ((BodyKeepsSettings.of_lookup (readParameterBody_state p)).withLength p _).answer _ a _ s
  | parameterRun a p => exact ((parameterRunBody_settings p).withLength p _).answer _ a _ s
  | data a p => exact (dataBody_settings p).send _ a _ s
  | readChanges a p => exact (BodyKeepsSettings.withLength p (.of_lookup fun _ => rfl) _).answer _ a _ s
  | ackChanges a p => exact (BodyKeepsSettings.withLength p (.of_settings fun _ => rfl) _).answer _ a _ s
  | scanMode a p => exact ((scanModeBody_settings p).withLength p _).answer _ a _ s
  | restart a p => exact (restartBody_settings.withLength p _).answer _ a _ s

/-- Settles O11: a value written is clamped, a floor comes in force from its parameter, and a step carries out one
command or moves the clock. -/
theorem settingsStayInRange : Obligations.SettingsStayInRange := by
  intro s t hs h
  suffices Leaves (SettingsStay s) (step s) from this t h hs
  unfold step
  split
  · next c rest _ => exact exec_settings c { s with pending := rest }
  · unfold idle
    split
    · exact exec_settings _ s
    · exact leaves_sameSettings rfl

end Sys2Proof.Machine
end

section
/-! Command frames at the Console Port (R176 to R180, R190): every console command is its body taken by the port,
under the length and the frame class of its code. -/

namespace Sys2Proof.Machine

open Sys2Proof

/-- The payload lengths of the command table (R181); DATA has none (R177). -/
def commandLengths : List (Byte × Nat) :=
  [(0x01, 12), (0x02, 5), (0x03, 4), (0x04, 12), (0x05, 4), (0x06, 4), (0x07, 2), (0x08, 1), (0x09, 4),
    (0x0A, 4), (0x10, 6), (0x11, 1), (0x12, 1), (0x13, 1), (0x14, 3), (0x20, 1), (0x21, 1), (0x22, 2),
    (0x23, 2), (0x30, 7), (0x31, 3), (0x32, 3), (0x40, 0), (0x41, 4), (0x50, 1), (0x51, 0)]

/-- The frame class of a command code: DATA leaves the run open, four codes are honoured in broadcast (R176,
R180). -/
def frameClass (code : Byte) : FrameClass :=
  if code = 0x33 then .data else if code ∈ [0x30, 0x32, 0x50] then .honoured else .plain

/-- A body that a payload of the wrong length does not reach (R179). -/
def Checked (code : Byte) (p : List Byte) (body : State → State × Reply) : Prop :=
  ∀ n, (code, n) ∈ commandLengths → p.length ≠ n → ∀ s, body s = reply .badLength s

/-- What a frame taken by the port makes of a state: with the arbiter's choice after it when the command's rule may
queue a request (R178 to R180). -/
def TakenFrom (code ad : Byte) (body : State → State × Reply) (s : State) (x : Result) : Prop :=
  x = answerCommand (frameClass code) ad code body s ∨ x = answerAndSend (frameClass code) ad code body s

section Taken

variable {s t : State} {ad code : Byte} {p : List Byte} {body : State → State × Reply} {x : Result}

theorem withLength_ne {n : Nat} (hp : p.length ≠ n) (body : State → State × Reply) (s : State) :
    withLength n p body s = reply .badLength s := by
  simp [withLength, hp]

/-- A body under the length of its code is checked: the table gives each code one length. -/
theorem checked_withLength {n : Nat} (h : (code, n) ∈ commandLengths) (body : State → State × Reply) :
    Checked code p (withLength n p body) := by
  intro m hm hp s
  have single : ∀ a ∈ commandLengths, ∀ b ∈ commandLengths, a.1 = b.1 → a.2 = b.2 := by decide
  have same : m = n := single _ hm _ h rfl
  exact withLength_ne (same ▸ hp) body s

/-- A code that the table does not give a length. -/
theorem checked_unlisted (h : code ∉ commandLengths.map Prod.fst) (body : State → State × Reply) :
    Checked code p body := fun _ hn => absurd (List.mem_map_of_mem hn) h

theorem frameClass_plain (h : code ∉ [0x30, 0x32, 0x33, 0x50]) : frameClass code = .plain := by
  have honoured : ∀ k : Byte, k ∈ [0x30, 0x32, 0x50] → k ∈ [0x30, 0x32, 0x33, 0x50] := by decide
  have data : (0x33 : Byte) ∈ [0x30, 0x32, 0x33, 0x50] := by decide
  rw [frameClass, if_neg fun e => h (by rw [e]; exact data), if_neg fun e => h (honoured _ e)]

/-- A code outside the command table is neither honoured in broadcast nor DATA. -/
theorem frameClass_unknown (h : code ∉ commandCodes) : frameClass code = .plain := by
  have listed : ∀ k : Byte, k ∈ [0x30, 0x32, 0x33, 0x50] → k ∈ commandCodes := by decide
  exact frameClass_plain fun hk => h (listed _ hk)

/-- Every console command but an answer frame is its body, checked for the length of its code, taken by the port in
the class of its code (R178 to R181). -/
theorem exec_command {c : Instr} (hc : consoleParts c = some (ad, code, p)) (hwf : c.wf = true)
    (hne : ∀ a k q, c ≠ .answerFrameSeen a k q) (s : State) :
    ∃ body, TakenFrom code ad body s (exec c s) ∧ Checked code p body := by
  cases c <;> simp only [consoleParts, reduceCtorEq] at hc <;> cases hc
  case answerFrameSeen => exact absurd rfl (hne _ _ _)
  case unknownCode =>
    have unlisted : code ∉ commandCodes := by
      simp only [Instr.wf, Bool.and_eq_true, Bool.not_eq_true', List.contains_eq_mem, decide_eq_false_iff_not] at hwf
      exact hwf.2
    have known : ∀ k ∈ commandLengths.map Prod.fst, k ∈ commandCodes := by decide
    refine ⟨reply .unknownCode, .inl ?_, checked_unlisted (fun h => unlisted (known _ h)) _⟩
    rw [frameClass_unknown unlisted]
    rfl
  case data => exact ⟨_, .inr rfl, checked_unlisted (by decide) _⟩
  case mountReel | prepared | stopReel | orderSplice | confirm | cancelOrder | indexStand | clearStand
      | setParameter => exact ⟨_, .inr rfl, checked_withLength (by decide) _⟩
  all_goals exact ⟨_, .inl rfl, checked_withLength (by decide) _⟩

/-- The arbiter has nothing to send when the frame leaves the bus as it was. -/
theorem TakenFrom.eq_next (h : TakenFrom code ad body s x) (hw : NothingWaits s)
    (ht : takeCommand (frameClass code) ad code body s = t) (hb : t.bus = s.bus) : x = .next t := by
  have waits : NothingWaits t := by unfold NothingWaits; rw [hb]; exact hw
  rcases h with rfl | rfl
  · exact congrArg Host.Outcome.next ht
  · rw [answerAndSend, ht, arbitrate_eq_self waits]

/-! ## Frames that are not carried out -/

theorem ownAddress_iff : ownAddress s ad = true ↔ s.port.address ≠ 0 ∧ ad = s.port.address.setWidth 8 := by
  simp [ownAddress]

/-- No unit has the address 0 of a broadcast (R178, R180). -/
theorem ownAddress_zero (s : State) : ownAddress s 0 = false := by
  have zero : ∀ a : BitVec 5, 0 = a.setWidth 8 → a = 0 := by decide
  rw [← Bool.not_eq_true, ownAddress_iff]
  exact fun h => h.1 (zero _ h.2)

theorem takeCommand_held (k : FrameClass) (h : s.resetHeld = true) : takeCommand k ad code body s = s := by
  simp [takeCommand, h]

theorem takeCommand_pending (k : FrameClass) (ho : ownAddress s ad = true) (h : s.port.answer.isSome = true) :
    takeCommand k ad code body s = s := by
  simp [takeCommand, ho, h]

/-- A frame for another unit, and a broadcast of a code that is not honoured, end at most the parameter run. -/
theorem takeCommand_ignored {k : FrameClass} (hr : s.resetHeld = false) (ho : ownAddress s ad = false)
    (h : ad ≠ 0 ∨ k = .plain) : takeCommand k ad code body s = runAfter k s := by
  have ignored : ¬ (ad == 0 && k != .plain) = true := by
    rw [Bool.and_eq_true, beq_iff_eq, bne_iff_ne]
    exact fun ⟨hz, hk⟩ => h.elim (· hz) (hk ·)
  rw [takeCommand, if_neg (by simp [hr]), if_neg (by simp [ho]), if_neg ignored]

/-- Every frame but DATA ends the parameter run (R176). -/
theorem runAfter_frameClass (code : Byte) (s : State) :
    runAfter (frameClass code) s = if code = 0x33 then s else endParamRun s := by
  unfold frameClass
  split
  · rfl
  · split <;> rfl

theorem runAfter_bus (k : FrameClass) (s : State) : (runAfter k s).bus = s.bus := by cases k <;> rfl

end Taken

/-- Settles O47: each of the four is a branch of the port's taking of the frame, which no body is reached in. -/
theorem framesNotCarriedOut : Obligations.FramesNotCarriedOut := by
  intro c ad code p s hwf hc hne hw
  obtain ⟨body, taken, -⟩ := exec_command hc hwf hne s
  refine ⟨fun hheld => ?_, fun hpins had hpending => ?_, fun hr hz had => ?_, fun hr hz hcode => ?_⟩
  · exact taken.eq_next hw (takeCommand_held _ hheld) rfl
  · exact taken.eq_next hw (takeCommand_pending _ (ownAddress_iff.2 ⟨hpins, had⟩) hpending) rfl
  · have other : ownAddress s ad = false := by
      rw [← Bool.not_eq_true, ownAddress_iff]
      exact fun h => had h.2
    refine (taken.eq_next hw (takeCommand_ignored hr other (.inl hz)) (runAfter_bus ..)).trans ?_
    rw [runAfter_frameClass]
    rfl
  · subst hz
    have plain := frameClass_plain hcode
    refine taken.eq_next hw ((takeCommand_ignored hr (ownAddress_zero s) (.inr plain)).trans ?_) rfl
    rw [plain]
    rfl

/-! ## Wrong lengths (R177, R179) -/

section Lengths

variable {s : State} {ad code : Byte} {p : List Byte} {body : State → State × Reply}

/-- An addressed frame is carried out and answered, whatever its class (R176, R179). -/
theorem takeCommand_own (h : Addressed s ad) (k : FrameClass) :
    takeCommand k ad code body s =
      setAnswer (some (answerOf code (body (runAfter k s)).2)) (body (runAfter k s)).1 := by
  have own := h.own
  obtain ⟨hr, ha, -, -⟩ := h
  simp [takeCommand, hr, own, ha]

/-- A frame whose code has a length is an ordinary command frame: no answer frame, and not DATA. -/
theorem commandLengths_code {n : Nat} (h : (code, n) ∈ commandLengths) : code.getLsbD 7 = false ∧ code ≠ 0x33 := by
  have listed : ∀ k ∈ commandLengths.map Prod.fst, k.getLsbD 7 = false ∧ k ≠ 0x33 := by decide
  exact listed _ (List.mem_map_of_mem h)

theorem dataBody_badLength (h : p.length = 0 ∨ 48 < p.length ∨ p.length % 4 ≠ 0) (s : State) :
    dataBody p s = reply .badLength s := by
  have bad : dataLength p.length = false := by
    simp only [dataLength, Bool.and_eq_false_iff, bne_eq_false_iff_eq, decide_eq_false_iff_not, beq_eq_false_iff_ne]
    omega
  simp [dataBody, bad]

end Lengths

/-- Settles O48: the body is not reached, so that the port answers BAD_LENGTH for the state of the frame's taking. -/
theorem wrongLengths : Obligations.WrongLengths := by
  intro ad s h hw
  refine ⟨fun c code p n hc hwf hn hp => ?_, fun p hp => ?_⟩
  · obtain ⟨sent, other⟩ := commandLengths_code hn
    have command : ∀ a k q, c ≠ .answerFrameSeen a k q := by
      rintro a k q rfl
      cases hc
      simp only [Instr.wf, sent, Bool.and_false, Bool.false_eq_true] at hwf
    obtain ⟨body, taken, checked⟩ := exec_command hc hwf command s
    refine taken.eq_next hw ((takeCommand_own h _).trans ?_) rfl
    rw [checked n hn hp, runAfter_frameClass, if_neg other]
    rfl
  · have taken : TakenFrom 0x33 ad (dataBody p) s (exec (.data ad p) s) := .inr rfl
    refine taken.eq_next hw ((takeCommand_own h _).trans ?_) rfl
    rw [dataBody_badLength hp]
    rfl

end Sys2Proof.Machine
end

section
/-! SET PARAMETER, PARAMETER RUN and DATA (R172, R173, R176, R177, R180). -/

namespace Sys2Proof.Machine

open Sys2Proof

/-! ## Frames that are carried out in broadcast too (R180) -/

/-- The answer at the port after a frame: a broadcast leaves the one that is pending (R179, R180). -/
def sentAnswer (s : State) (ad code : Byte) (x : Status) (items : List Byte) : Option Answer :=
  if ad = 0 then s.port.answer else some ⟨code ||| 0x80, statusCode x :: items⟩

section CarriedOut

variable {s t : State} {ad code : Byte} {body : State → State × Reply} {x : Status} {items : List Byte} {y : Result}
  {k : FrameClass}

theorem takeCommand_broadcast (hr : s.resetHeld = false) (hk : k ≠ .plain) :
    takeCommand k 0 code body s = (body (runAfter k s)).1 := by
  rw [takeCommand, if_neg (by simp [hr]), if_neg (by simp only [ownAddress_zero, Bool.false_eq_true, not_false_iff]),
    if_pos (by simp [hk])]

/-- A frame of an honoured code or of DATA leaves its body's state, answered unless it is a broadcast. -/
theorem takeCommand_carriedOut (hr : s.resetHeld = false) (h : Addressed s ad ∨ ad = 0) (hk : k ≠ .plain)
    (hb : body (runAfter k s) = (t, ⟨x, items⟩)) (ha : t.port.answer = s.port.answer) :
    takeCommand k ad code body s = setAnswer (sentAnswer s ad code x items) t := by
  rcases h with h | rfl
  · have addressed : ad ≠ 0 := by
      rintro rfl
      exact Bool.false_ne_true ((ownAddress_zero s).symm.trans h.own)
    rw [takeCommand_own h, hb, sentAnswer, if_neg addressed]
    rfl
  · rw [takeCommand_broadcast hr hk, hb, sentAnswer, if_pos rfl, ← ha]
    rfl

/-- The same for the command, when its body leaves the bus. -/
theorem TakenFrom.carriedOut (taken : TakenFrom code ad body s y) (hr : s.resetHeld = false) (hw : NothingWaits s)
    (h : Addressed s ad ∨ ad = 0) (hk : frameClass code ≠ .plain)
    (hb : body (runAfter (frameClass code) s) = (t, ⟨x, items⟩)) (ha : t.port.answer = s.port.answer)
    (hbus : t.bus = s.bus) : y = .next (setAnswer (sentAnswer s ad code x items) t) :=
  taken.eq_next hw (takeCommand_carriedOut hr h hk hb ha) hbus

end CarriedOut

/-! ## Writes of one parameter (R172, R173) -/

section Writes

variable {s : State} {v : Nat}

theorem writeParam_line (l : LineId) (j : Fin 4) :
    writeParam (.line l) j.val v s = (writeLine l j v s, true) := by
  simp [writeParam, j.isLt]

theorem writeParam_standUnused {st : StandId} {n : Nat} (h : 14 ≤ n) :
    writeParam (.stand st) n v s = (s, true) := by
  simp [writeParam, Nat.not_lt.2 h]

theorem writeParam_lineUnused {l : LineId} {n : Nat} (h : 4 ≤ n) : writeParam (.line l) n v s = (s, true) := by
  simp [writeParam, Nat.not_lt.2 h]

theorem readParam_standUnused {st : StandId} {n : Nat} (h : 14 ≤ n) : readParam s (.stand st) n = 0 := by
  simp [readParam, Nat.not_lt.2 h]

theorem readParam_lineUnused {l : LineId} {n : Nat} (h : 4 ≤ n) : readParam s (.line l) n = 0 := by
  simp [readParam, Nat.not_lt.2 h]

theorem readParam_storeStand (st : StandId) (j : Fin 14) :
    readParam (storeStand st j v s) (.stand st) j.val = v := by
  simp [readParam_stand, standParam, storeStand]

theorem readParam_storeLine (l : LineId) (j : Fin 4) : readParam (storeLine l j v s) (.line l) j.val = v := by
  simp [readParam_line, lineParam, storeLine]

theorem writeParam_standOther {st : StandId} {j : Fin 14} (h : j ≠ 0) :
    writeParam (.stand st) j.val v s = (storeStand st j (clampTo (vget standSpecs j) v) s, true) := by
  simp [writeParam, j.isLt, writeStand, h]

theorem writeParam_standLineFixed {st : StandId}
    (h : (runningReel s st).isSome = true ∨ (openRow s st).isSome = true) :
    writeParam (.stand st) 0 v s = (s, false) := by
  have fixed : lineFixed s st = true := by simpa [lineFixed] using h
  simp [writeParam, writeStand, fixed]

/-- A stand's line, where it may change: an unchanged line leaves the arm contexts (R173). -/
theorem writeParam_standLineFree {st : StandId} (hr : runningReel s st = none) (ho : openRow s st = none) :
    writeParam (.stand st) 0 v s = ({ storeStand st 0 (clampTo (vget standSpecs 0) v) s with
      arms := if clampTo (vget standSpecs 0) v = standParam s st 0 then s.arms
        else vset s.arms st (perArm emptyArm) }, true) := by
  have free : lineFixed s st = false := by simp [lineFixed, hr, ho]
  by_cases same : clampTo (vget standSpecs 0) v = standParam s st 0
  · simp [writeParam, writeStand, free, same, storeStand, setSettings, standParam]
  · simp [writeParam, writeStand, free, same, setArms, storeStand, setSettings]

theorem writeParam_lineOther {l : LineId} {j : Fin 4} (h : j ≠ 0) :
    writeParam (.line l) j.val v s = (storeLine l j (clampTo (vget lineSpecs j) v) s, true) := by
  simp [writeParam_line, writeLine, h]

theorem storeLine_onlyIn (l : LineId) (j : Fin 4) (v : Nat) (s : State) :
    OnlyIn [.settings] s (storeLine l j v s) := by
  intro b hb
  cases b
  case settings => simp at hb
  all_goals rfl

/-- A write changes nothing at the port before the operations that it causes. -/
theorem writeParam_begins (x : Target) (i v : Nat) (s : State) :
    ∃ u, u.port = s.port ∧ Keeps u (writeParam x i v s).1 := by
  unfold writeParam
  split <;> split
  · refine ⟨_, ?_, .refl _⟩
    unfold writeStand
    dsimp only
    (repeat' split) <;> rfl
  · exact ⟨s, rfl, .refl s⟩
  · exact ⟨storeLine _ _ _ s, rfl, ite_keeps (evaluate_keeps (.refl _)) (.refl _)⟩
  · exact ⟨s, rfl, .refl s⟩

theorem writeParam_answer (x : Target) (i : Nat) : (writeParam x i v s).1.port.answer = s.port.answer := by
  obtain ⟨u, port, kept⟩ := writeParam_begins x i v s
  rw [kept.answer, port]

theorem writeParam_address (x : Target) (i : Nat) : (writeParam x i v s).1.port.address = s.port.address := by
  obtain ⟨u, port, kept⟩ := writeParam_begins x i v s
  rw [kept.address, port]

end Writes

/-! ## The three bodies -/

/-- The status of a write: OK, or WRONG_STATE for a refused line (R173, R179). -/
def writeStatus (b : Bool) : Status := if b then .ok else .wrongState

section Bodies

variable {s t : State} {ad : Byte} {p : List Byte} {x : Target} {i : Nat} {b : Bool}

theorem setParameterBody_writes (hx : targetOf (item p 0 1) (item p 1 1) = some x) (hi : item p 2 1 = i)
    (hw : writeParam x i (item p 3 4) s = (t, b)) :
    setParameterBody p s = (t, ⟨writeStatus b, beBytes 4 (readParam t x i)⟩) := by
  simp only [setParameterBody, hx, hi, hw, writeStatus]

/-- A target kind above 1 and a number 0 name no target (R172). -/
theorem targetOf_invalid (h : 1 < item p 0 1 ∨ item p 1 1 = 0) : targetOf (item p 0 1) (item p 1 1) = none := by
  rcases h with h | h
  · exact targetOf_none h _
  · rw [h]
    unfold targetOf
    split <;> rfl

theorem setParameterBody_invalid (h : 1 < item p 0 1 ∨ item p 1 1 = 0) :
    setParameterBody p s = (s, ⟨.badValue, []⟩) := by
  simp only [setParameterBody, targetOf_invalid h, reply]

theorem parameterRunBody_opens (hx : targetOf (item p 0 1) (item p 1 1) = some x) :
    parameterRunBody p s = (openParamRun x (item p 2 1) s, ⟨.ok, []⟩) := by
  simp only [parameterRunBody, hx, ok]

theorem parameterRunBody_invalid (h : 1 < item p 0 1 ∨ item p 1 1 = 0) :
    parameterRunBody p s = (s, ⟨.badValue, []⟩) := by
  simp only [parameterRunBody, targetOf_invalid h, reply]

/-- DATA of one value writes it at the run's next index (R177). -/
theorem dataBody_writes (hp : p.length = 4) (hrun : s.port.run = some ⟨x, i⟩)
    (hw : writeParam x i (item p 0 4) s = (t, b)) :
    dataBody p s = (openParamRun x (min 256 (i + 1)) t, ⟨writeStatus b, beBytes 4 (readParam t x i)⟩) := by
  have value : dataValues p = [item p 0 4] := by simp [dataValues, hp, List.range_succ]
  have taken : dataLength p.length = true := by rw [hp]; rfl
  have held (u : State) : heldValues u x i 1 = beBytes 4 (readParam u x i) := by
    simp [heldValues, List.range_succ]
  simp only [dataBody, taken, hrun, value, writeRun, hw, List.length_singleton, held, Bool.and_true, writeStatus]
  rfl

theorem dataBody_noRun (hp : p.length = 4) (hrun : s.port.run = none) : dataBody p s = (s, ⟨.wrongState, []⟩) := by
  have taken : dataLength p.length = true := by rw [hp]; rfl
  simp [dataBody, taken, hrun, reply]

end Bodies

/-! ## The three commands -/

/-- A line's Gmin stored by SET PARAMETER, before the evaluation that it causes (R95, R172). -/
def spacingStored (l : LineId) (p : List Byte) (s : State) : State :=
  storeLine l 0 (clampTo (vget lineSpecs 0) (item p 3 4)) (endParamRun s)

section Commands

variable {s t : State} {ad : Byte} {p : List Byte} {x : Target} {i v : Nat} {b : Bool} {status : Status}
  {items : List Byte}

variable (hr : s.resetHeld = false) (h : Addressed s ad ∨ ad = 0)

include hr h

/-- DATA of one value, whatever its write causes: the run moves on by one and stops at 256 (R177). -/
theorem exec_data_moves (hp : p.length = 4) {run : ParamRun} (hrun : s.port.run = some run) :
    ∃ t, exec (.data ad p) s = .next t ∧ t.port.run = some ⟨run.target, min 256 (run.next + 1)⟩ ∧
      t.port.address = s.port.address := by
  obtain ⟨target, next⟩ := run
  have body := dataBody_writes (x := target) (i := next) hp hrun rfl
  have carried := takeCommand_carriedOut (k := .data) (code := 0x33) hr h (by decide) body (writeParam_answer ..)
  have chosen (u : State) : Keeps u (arbitrate u) := arbitrate_keeps (.refl u)
  refine ⟨arbitrate (takeCommand .data ad 0x33 (dataBody p) s), rfl, ?_⟩
  rw [(chosen _).run, (chosen _).address, carried]
  exact ⟨rfl, writeParam_address ..⟩

/-- SET PARAMETER of a line's Gmin: the value stored, and then the evaluation and the arbiter's choice (R95, R172). -/
theorem exec_setParameter_spacing (hp : p.length = 7) {l : LineId}
    (hx : targetOf (item p 0 1) (item p 1 1) = some (.line l)) (hi : item p 2 1 = 0) :
    ∃ t, exec (.setParameter ad p) s = .next t ∧
      t.settings = (storeLine l 0 (clampTo (vget lineSpecs 0) (item p 3 4)) s).settings ∧
      t.port.answer = sentAnswer s ad 0x30 .ok (beBytes 4 (clampTo (vget lineSpecs 0) (item p 3 4))) ∧
      t.port.run = none ∧
      OnlyIn [.reels, .verifies, .rows, .schedules, .sequencers, .bus, .settings, .port] s t := by
  have evaluated : Keeps (spacingStored l p s) (evaluate l (spacingStored l p s)) := evaluate_keeps (.refl _)
  have held : readParam (evaluate l (spacingStored l p s)) (.line l) 0 = clampTo (vget lineSpecs 0) (item p 3 4) := by
    have same : readParam (evaluate l (spacingStored l p s)) (.line l) 0 =
        readParam (spacingStored l p s) (.line l) 0 := by
      simp only [readParam, lineParam, evaluated.settings]
    exact same.trans (readParam_storeLine l 0)
  have body : setParameterBody p (endParamRun s) =
      (evaluate l (spacingStored l p s), ⟨.ok, beBytes 4 (clampTo (vget lineSpecs 0) (item p 3 4))⟩) := by
    rw [setParameterBody_writes hx hi (writeParam_line l 0), ← held]
    rfl
  have carried := takeCommand_carriedOut (k := .honoured) (code := 0x30) (body := withLength 7 p (setParameterBody p))
    hr h (by decide) (by rw [withLength_eq hp]; exact body) evaluated.answer
  have chosen (u : State) : Keeps u (arbitrate u) := arbitrate_keeps (.refl u)
  have only : OnlyIn [.reels, .verifies, .rows, .schedules, .sequencers, .bus, .port] (spacingStored l p s)
      (evaluate l (spacingStored l p s)) :=
    evaluated.onlyIn_lines (evaluate_arms ..) (evaluate_outputs ..) (evaluate_trackers ..) (evaluate_stands ..)
  refine ⟨arbitrate (takeCommand .honoured ad 0x30 (withLength 7 p (setParameterBody p)) s), rfl, ?_⟩
  rw [(chosen _).settings, (chosen _).answer, (chosen _).run, carried]
  refine ⟨evaluated.settings, rfl, evaluated.run, ?_⟩
  exact (((((endParamRun_onlyIn s).and_then (storeLine_onlyIn _ _ _ _)).and_then only).and_then
    (setAnswer_onlyIn _ _)).and_then (arbitrate_onlyIn _)).mono (by simp)

variable (hw : NothingWaits s)

include hw

theorem exec_setParameter (hp : p.length = 7) (hb : setParameterBody p (endParamRun s) = (t, ⟨status, items⟩))
    (ha : t.port.answer = s.port.answer) (hbus : t.bus = s.bus) :
    exec (.setParameter ad p) s = .next (setAnswer (sentAnswer s ad 0x30 status items) t) := by
  have taken : TakenFrom 0x30 ad (withLength 7 p (setParameterBody p)) s (exec (.setParameter ad p) s) := .inr rfl
  exact taken.carriedOut hr hw h (by decide) (by rw [withLength_eq hp]; exact hb) ha hbus

/-- SET PARAMETER whose write starts no other part: the state written, answered with the value held. -/
theorem exec_setParameter_writes (hp : p.length = 7) (hx : targetOf (item p 0 1) (item p 1 1) = some x)
    (hi : item p 2 1 = i) (hwr : writeParam x i (item p 3 4) (endParamRun s) = (t, b)) (hv : readParam t x i = v)
    (hbus : t.bus = s.bus) :
    exec (.setParameter ad p) s = .next (setAnswer (sentAnswer s ad 0x30 (writeStatus b) (beBytes 4 v)) t) := by
  subst hv
  have answer := writeParam_answer (v := item p 3 4) (s := endParamRun s) x i
  rw [hwr] at answer
  exact exec_setParameter hr h hw hp (setParameterBody_writes hx hi hwr) answer hbus

theorem exec_parameterRun (hp : p.length = 3) (hb : parameterRunBody p (endParamRun s) = (t, ⟨status, items⟩))
    (ha : t.port.answer = s.port.answer) (hbus : t.bus = s.bus) :
    exec (.parameterRun ad p) s = .next (setAnswer (sentAnswer s ad 0x32 status items) t) := by
  have taken : TakenFrom 0x32 ad (withLength 3 p (parameterRunBody p)) s (exec (.parameterRun ad p) s) := .inl rfl
  exact taken.carriedOut hr hw h (by decide) (by rw [withLength_eq hp]; exact hb) ha hbus

/-- DATA of one value whose write starts no other part. -/
theorem exec_data_writes (hp : p.length = 4) (hrun : s.port.run = some ⟨x, i⟩)
    (hwr : writeParam x i (item p 0 4) s = (t, b)) (hv : readParam t x i = v) (hbus : t.bus = s.bus) :
    exec (.data ad p) s = .next (setAnswer (sentAnswer s ad 0x33 (writeStatus b) (beBytes 4 v))
      (openParamRun x (min 256 (i + 1)) t)) := by
  subst hv
  have taken : TakenFrom 0x33 ad (dataBody p) s (exec (.data ad p) s) := .inr rfl
  have answer := writeParam_answer (v := item p 0 4) (s := s) x i
  rw [hwr] at answer
  exact taken.carriedOut hr hw h (by decide) (dataBody_writes hp hrun hwr) answer hbus

end Commands

/-- Settles O57: each command is one write, or one opened run, answered with what is then held. -/
theorem settingCommands : Obligations.SettingCommands := by
  intro ad p s hr hw h clamped sent standSet lineSet
  refine ⟨fun hp => ⟨fun st j h0 h1 h2 => ⟨fun hj => ?_, fun hj fixed => ?_, fun hj hn ho => ?_⟩,
      fun l j h0 h1 h2 => ⟨fun hj => ?_, fun hj => ?_⟩, fun bad => ?_, fun l h0 h1 h2 => ?_, fun st h0 h1 h2 => ?_⟩,
    fun hp => ⟨fun st h0 h1 => ?_, fun l h0 h1 => ?_, fun bad => ?_⟩,
    fun hp => ⟨fun st n hrun => ⟨fun j hn hj => ?_, fun hn => ?_⟩, fun l n hrun j hn hj => ?_, fun run hrun => ?_,
      fun hrun => ?_⟩⟩
  · exact exec_setParameter_writes hr h hw hp (by rw [h0, h1, targetOf_stand]) h2
      (writeParam_standOther (s := endParamRun s) hj) (readParam_storeStand ..) rfl
  · subst hj
    exact exec_setParameter_writes hr h hw hp (by rw [h0, h1, targetOf_stand]) h2
      (writeParam_standLineFixed (s := endParamRun s) fixed) (readParam_stand st 0) rfl
  · subst hj
    exact exec_setParameter_writes hr h hw hp (by rw [h0, h1, targetOf_stand]) h2
      (writeParam_standLineFree (s := endParamRun s) hn ho) (readParam_storeStand (s := endParamRun s) st 0) rfl
  · exact exec_setParameter_writes hr h hw hp (by rw [h0, h1, targetOf_line]) h2
      (writeParam_lineOther (s := endParamRun s) hj) (readParam_storeLine ..) rfl
  · subst hj
    exact exec_setParameter_spacing hr h hp (by rw [h0, h1, targetOf_line]) h2
  · exact exec_setParameter (t := endParamRun s) hr h hw hp (setParameterBody_invalid bad) rfl rfl
  · exact exec_setParameter_writes hr h hw hp (by rw [h0, h1, targetOf_line]) rfl
      (writeParam_lineUnused (s := endParamRun s) h2) (readParam_lineUnused h2) rfl
  · exact exec_setParameter_writes hr h hw hp (by rw [h0, h1, targetOf_stand]) rfl
      (writeParam_standUnused (s := endParamRun s) h2) (readParam_standUnused h2) rfl
  · exact exec_parameterRun hr h hw hp (parameterRunBody_opens (by rw [h0, h1, targetOf_stand])) rfl rfl
  · exact exec_parameterRun hr h hw hp (parameterRunBody_opens (by rw [h0, h1, targetOf_line])) rfl rfl
  · exact exec_parameterRun (t := endParamRun s) hr h hw hp (parameterRunBody_invalid bad) rfl rfl
  · subst hn
    have done := exec_data_writes hr h hw hp hrun (writeParam_standOther hj) (readParam_storeStand ..) rfl
    rwa [Nat.min_eq_right (by omega)] at done
  · exact exec_data_writes hr h hw hp hrun (writeParam_standUnused hn) (readParam_standUnused hn) rfl
  · subst hn
    have done := exec_data_writes hr h hw hp hrun (writeParam_lineOther hj) (readParam_storeLine ..) rfl
    rwa [Nat.min_eq_right (by omega)] at done
  · exact exec_data_moves hr h hp hrun
  · have taken : TakenFrom 0x33 ad (dataBody p) s (exec (.data ad p) s) := .inr rfl
    exact taken.carriedOut hr hw h (by decide) (dataBody_noRun hp hrun) rfl rfl

end Sys2Proof.Machine
end

section
/-! The change flags (R183, R185, R189): each command but ACK CHANGES, RESTART and power-on reset is a change that
leaves the flags alone, followed by operations of `Keeps`, which raise flags and clear none. -/

namespace Sys2Proof.Machine

open Sys2Proof

/-- No change flag is cleared. -/
def FlagsStay (s t : State) : Prop := FlagsKept s.port.flags t.port.flags

section Stay

variable {s t u : State}

theorem FlagsStay.of_flags (h : t.port.flags = s.port.flags) : FlagsStay s t := by
  rw [FlagsStay, h]
  exact .refl _

theorem FlagsStay.refl (s : State) : FlagsStay s s := .of_flags rfl

theorem FlagsStay.trans (h : FlagsStay s t) (k : FlagsStay t u) : FlagsStay s u := fun i hi => k i (h i hi)

/-- A change that leaves the flags alone, and then operations that clear none. -/
theorem Keeps.flagsStay (k : Keeps u t) (h : u.port.flags = s.port.flags) : FlagsStay s t :=
  (FlagsStay.of_flags h).trans k.flags

theorem leaves_sameFlags (h : t.port.flags = s.port.flags) : Leaves (FlagsStay s) (.next t) :=
  leaves_of_next (.of_flags h)

theorem leaves_keptFlags (k : Keeps u t) (h : u.port.flags = s.port.flags) : Leaves (FlagsStay s) (.next t) :=
  leaves_of_next (k.flagsStay h)

/-- The same with the arbiter's choice at the end. -/
theorem leaves_arbitratedFlags (k : Keeps u t) (h : u.port.flags = s.port.flags) :
    Leaves (FlagsStay s) (.next (arbitrate t)) := leaves_keptFlags (arbitrate_keeps k) h

end Stay

/-! ## Console commands -/

section Console

/-- A command's body clears no flag. -/
def BodyKeepsFlags (body : State → State × Reply) : Prop := ∀ u, FlagsStay u (body u).1

variable {body : State → State × Reply} (p : List Byte)

theorem BodyKeepsFlags.of_flags (h : ∀ u, (body u).1.port.flags = u.port.flags) : BodyKeepsFlags body :=
  fun u => .of_flags (h u)

theorem BodyKeepsFlags.of_lookup (h : ∀ u, (body u).1 = u) : BodyKeepsFlags body := .of_flags fun u => by rw [h]

theorem BodyKeepsFlags.withLength (hb : BodyKeepsFlags body) (n : Nat) :
    BodyKeepsFlags (withLength n p body) := by
  intro u
  unfold Machine.withLength
  split
  · exact hb u
  · exact .refl u

/-- The port ends the run and sends the answer, and raises or clears no flag itself (R176, R178). -/
theorem takeCommand_flagsStay (hb : BodyKeepsFlags body) (k : FrameClass) (a c : Byte) (s : State) :
    FlagsStay s (takeCommand k a c body s) := by
  have run : FlagsStay s (runAfter k s) := by cases k <;> exact .of_flags rfl
  have carried : FlagsStay s (body (runAfter k s)).1 := run.trans (hb _)
  unfold takeCommand
  split
  · exact .refl s
  · split
    · split
      · exact .refl s
      · exact carried.trans (.of_flags rfl)
    · split
      · exact carried
      · exact run

theorem BodyKeepsFlags.answer (hb : BodyKeepsFlags body) (k : FrameClass) (a c : Byte) (s : State) :
    Leaves (FlagsStay s) (answerCommand k a c body s) := leaves_of_next (takeCommand_flagsStay hb k a c s)

theorem BodyKeepsFlags.send (hb : BodyKeepsFlags body) (k : FrameClass) (a c : Byte) (s : State) :
    Leaves (FlagsStay s) (answerAndSend k a c body s) :=
  leaves_of_next ((takeCommand_flagsStay hb k a c s).trans (arbitrate_keeps (.refl _)).flags)

theorem enterReelBody_flags : BodyKeepsFlags (enterReelBody p) := fun u => by
  rcases enterReelBody_cases p u with e | ⟨i, x, -, -, e⟩ <;> rw [e] <;> exact .of_flags rfl

theorem mountReelBody_flags : BodyKeepsFlags (mountReelBody p) := .of_flags fun u => by
  unfold mountReelBody
  (repeat' split) <;> rfl

theorem preparedBody_flags : BodyKeepsFlags (preparedBody p) := by
  intro u
  unfold preparedBody
  (repeat' split) <;> try exact .refl u
  exact (declare_keeps (.refl (setReel u _ _))).flagsStay rfl

theorem amendReelBody_flags : BodyKeepsFlags (amendReelBody p) := fun u => by
  rcases amendReelBody_cases p u with e | ⟨i, r, y, -, -, e⟩ <;> rw [e] <;> exact .of_flags rfl

theorem retireReelBody_flags : BodyKeepsFlags (retireReelBody p) := .of_flags fun u => by
  unfold retireReelBody
  (repeat' split) <;> rfl

theorem threadReelBody_flags : BodyKeepsFlags (threadReelBody p) := .of_flags fun u => by
  unfold threadReelBody
  (repeat' split) <;> rfl

theorem stopReelBody_flags : BodyKeepsFlags (stopReelBody p) := by
  intro u
  unfold stopReelBody
  dsimp only
  (repeat' split) <;> try exact .refl u
  exact (cancelStopped_keeps (stopTracker_keeps (.refl (setReel u _ _)))).flagsStay rfl

theorem orderSpliceBody_flags : BodyKeepsFlags (orderSpliceBody p) := fun u => by
  rcases orderSpliceBody_cases p u with e | ⟨i, row, -, -, -, e⟩ <;> rw [e]
  · exact .refl u
  · exact (createOrder_keeps i row u).flagsStay rfl

theorem withOrder_flags {f : RowId → OrderRow → State → State × Reply}
    (hf : ∀ i row, BodyKeepsFlags (f i row)) : BodyKeepsFlags (withOrder p f) := by
  intro u
  unfold withOrder
  dsimp only
  (repeat' split) <;> try exact .refl u
  exact hf _ _ u

theorem confirmBody_flags : BodyKeepsFlags (confirmBody p) := by
  refine withOrder_flags p fun i row u => ?_
  unfold confirmRow
  split
  case h_1 => exact .of_flags rfl
  case h_2 => exact (testOrder_keeps (raiseRow_keeps (.refl (setRow u i _)))).flagsStay rfl
  all_goals exact .refl u

theorem cancelOrderBody_flags : BodyKeepsFlags (cancelOrderBody p) := by
  refine withOrder_flags p fun i row u => ?_
  unfold cancelRow
  split
  case h_1 | h_2 | h_3 | h_4 => exact (closeOrder_keeps (.refl u)).flags
  all_goals exact .refl u

theorem releaseOrderBody_flags : BodyKeepsFlags (releaseOrderBody p) := fun u => by
  rcases releaseOrderBody_cases p u with e | ⟨i, st, e⟩ <;> rw [e]
  · exact .refl u
  · exact (raiseRow_keeps (.refl (setRow u i none))).flagsStay rfl

theorem indexStandBody_flags : BodyKeepsFlags (indexStandBody p) := .of_flags fun u => by
  unfold indexStandBody
  (repeat' split) <;> rfl

/-- A stand cleared goes ONLINE or OFFLINE, and its flag is raised or left (R168). -/
theorem settleCondition_flags (st : StandId) (u : State) : FlagsStay u (settleCondition st u) := by
  unfold settleCondition
  dsimp only
  split
  · exact (raiseStand_keeps (.refl (queueRequest st _ (modStand st _ u)))).flagsStay rfl
  · split
    · exact .of_flags rfl
    · exact (faultOrder_keeps (raiseStand_keeps (.refl (modStand st _ u)))).flagsStay rfl
    · exact (raiseStand_keeps (.refl (modStand st _ u))).flagsStay rfl
    · exact (raiseStand_keeps (.refl (modStand st _ u))).flagsStay rfl

theorem clearStandBody_flags : BodyKeepsFlags (clearStandBody p) := by
  intro u
  unfold clearStandBody
  (repeat' split) <;> try exact .refl u
  have emptied (st : StandId) : FlagsStay u (clearContexts st u) := .of_flags rfl
  exact (emptied _).trans (settleCondition_flags _ _)

theorem writeParam_flags (x : Target) (i v : Nat) (u : State) : FlagsStay u (writeParam x i v u).1 := by
  obtain ⟨w, port, kept⟩ := writeParam_begins x i v u
  exact kept.flagsStay (by rw [port])

theorem writeRun_flags (x : Target) (i : Nat) (vs : List Nat) (u : State) :
    FlagsStay u (writeRun x i vs u).1 := by
  induction vs generalizing i u with
  | nil => exact .refl u
  | cons v vs ih => exact (writeParam_flags x i v u).trans (ih (i + 1) _)

theorem setParameterBody_flags : BodyKeepsFlags (setParameterBody p) := by
  intro u
  unfold setParameterBody
  split
  · exact .refl u
  · exact writeParam_flags _ _ _ u

theorem parameterRunBody_flags : BodyKeepsFlags (parameterRunBody p) := .of_flags fun u => by
  unfold parameterRunBody
  split <;> rfl

theorem dataBody_flags : BodyKeepsFlags (dataBody p) := by
  intro u
  unfold dataBody
  (repeat' split) <;> try exact .refl u
  exact (writeRun_flags _ _ _ u).trans (.of_flags rfl)

theorem scanModeBody_flags : BodyKeepsFlags (scanModeBody p) := .of_flags fun u => by
  unfold scanModeBody takeScanMode
  dsimp only
  (repeat' split) <;> rfl

end Console

/-! ## Events -/

section Events

variable {s : State} (st : StandId)

theorem execResetRelease_flags : Leaves (FlagsStay s) (execResetRelease s) := by
  unfold execResetRelease
  split <;> exact leaves_sameFlags rfl

theorem execScanCall_flags : Leaves (FlagsStay s) (execScanCall s) := by
  unfold execScanCall
  split <;> exact leaves_sameFlags rfl

theorem execQuietTimer_flags : Leaves (FlagsStay s) (execQuietTimer s) := by
  unfold execQuietTimer
  split <;> exact leaves_sameFlags rfl

theorem execPulseEnd_flags (o : OutputLine) : Leaves (FlagsStay s) (execPulseEnd st o s) := by
  unfold execPulseEnd
  split <;> exact leaves_sameFlags rfl

/-- A window end raises the line's flag at a new OVERSPEED, and its tests raise others (R3). -/
theorem execSpeedWindowEnd_flags (l : LineId) : Leaves (FlagsStay s) (execSpeedWindowEnd l s) := by
  have raised : FlagsStay s (windowState l s) := by
    have ended : FlagsStay s (setLine (reachTime (vget s.lines l).windowEnd s) l (endWindow (vget s.lines l))) :=
      .of_flags rfl
    exact (ended.trans (ite_keeps (raiseLine_keeps (.refl _)) (.refl _)).flags).trans (.of_flags rfl)
  rw [show execSpeedWindowEnd l s = .next (arbitrate (windowEnded l s)) from exec_speedWindowEnd l s]
  exact leaves_of_next (raised.trans (windowEnded_keeps l s).flags)

theorem execRevolutionMark_flags (arm : Arm) : Leaves (FlagsStay s) (execRevolutionMark st arm s) := by
  unfold execRevolutionMark
  dsimp only
  split
  · exact leaves_keptFlags (verifyMark_keeps (.refl (setArmContext s st arm _))) rfl
  · exact leaves_arbitratedFlags (verifyMark_keeps (sequencerInterval_keeps
      (trackerInterval_keeps (.refl (setArmContext s st arm _))))) rfl

theorem execTapeMark_flags : Leaves (FlagsStay s) (execTapeMark st s) := by
  unfold execTapeMark
  split
  · exact leaves_sameFlags rfl
  · exact leaves_arbitratedFlags (sequencerTape_keeps (.refl (setArmContext s st _ _))) rfl

theorem execScanEnd_flags (slots : Vector Byte 8) : Leaves (FlagsStay s) (execScanEnd slots s) := by
  unfold execScanEnd
  split
  · exact leaves_arbitratedFlags (handReadings_keeps (.refl (endScan slots s))) rfl
  · exact leaves_sameFlags rfl

theorem execStopHoldTimerEnd_flags : Leaves (FlagsStay s) (execStopHoldTimerEnd st s) := by
  unfold execStopHoldTimerEnd
  dsimp only
  split
  · exact leaves_sameFlags rfl
  · next e _ =>
    split
    · next ho =>
      exact leaves_arbitratedFlags (leaveService_keeps (.refl (reachTime e s)) (eq_of_beq ho) (by decide)) rfl
    · exact leaves_sameFlags rfl

theorem execAccept_flags (k : RequestKind) (x : Option Arm) : Leaves (FlagsStay s) (execAccept st k x s) := by
  unfold execAccept
  split
  · exact leaves_sameFlags rfl
  · exact leaves_arbitratedFlags (ite_keeps (.refl (freePair s)) (acceptRequest_keeps (.refl _))) rfl

theorem execRefuse_flags (k : RequestKind) (x : Option Arm) (why : StandReason) :
    Leaves (FlagsStay s) (execRefuse st k x why s) := by
  unfold execRefuse
  split
  · exact leaves_sameFlags rfl
  · exact leaves_arbitratedFlags
      (ite_keeps (.refl (freePair s)) (refuseRequest_keeps (writeRefusal_keeps (.refl _)))) rfl

theorem execReplyTimeEnd_flags : Leaves (FlagsStay s) (execReplyTimeEnd s) := by
  unfold execReplyTimeEnd
  split
  · exact leaves_arbitratedFlags (takeHardError_keeps (.refl (freePair (reachTime _ s)))) rfl
  · exact leaves_sameFlags rfl

theorem execGrantLapse_flags : Leaves (FlagsStay s) (execGrantLapse s) := by
  unfold execGrantLapse
  split
  · next lim _ =>
    have freed : Keeps (reachTime lim s) (freePair (reachTime lim s)) := freePair_keeps (.refl _)
    exact leaves_arbitratedFlags
      (ite_keeps (setLapses_keeps freed) (takeHardError_keeps (setLapses_keeps freed))) rfl
  · exact leaves_sameFlags rfl

theorem execReadLimit_flags (k : ReadKind) : Leaves (FlagsStay s) (execReadLimit st k s) := by
  unfold execReadLimit
  split
  · exact leaves_sameFlags rfl
  · cases k <;> exact leaves_keptFlags (writeOutcome_keeps (.refl (closeRead st _ (reachTime _ s)))) rfl

theorem execIndexTimeout_flags : Leaves (FlagsStay s) (execIndexTimeout st s) := by
  unfold execIndexTimeout
  split
  · exact leaves_sameFlags rfl
  · exact leaves_arbitratedFlags
      (takeHardError_keeps (writeOutcome_keeps (.refl (setIndexRecord st none (reachTime _ s))))) rfl

theorem execVerifyTimeout_flags : Leaves (FlagsStay s) (execVerifyTimeout st s) := by
  unfold execVerifyTimeout
  split
  · exact leaves_sameFlags rfl
  · split
    · exact leaves_sameFlags rfl
    · exact leaves_arbitratedFlags
        (ite_keeps (repeatRun_keeps (.refl (reachTime _ s))) (finishRun_keeps (.refl _))) rfl

theorem execCutWaitEnd_flags : Leaves (FlagsStay s) (execCutWaitEnd st s) := by
  unfold execCutWaitEnd
  split
  · exact leaves_sameFlags rfl
  · exact leaves_arbitratedFlags (tryCloseDone_keeps (modSequencer_keeps (.refl (reachTime _ s)))) rfl

theorem execRetractTimeout_flags : Leaves (FlagsStay s) (execRetractTimeout st s) := by
  unfold execRetractTimeout
  split
  · exact leaves_sameFlags rfl
  · exact leaves_arbitratedFlags (endRetractWait_keeps (.refl (reachTime _ s))) rfl

/-- A message on a grant clears no flag when what it hands on clears none (R147). -/
theorem onGrant_flags {f : State → State} (hf : Keeps s (f s)) : Leaves (FlagsStay s) (onGrant st f s) := by
  unfold onGrant
  split
  · exact leaves_arbitratedFlags (endGrant_keeps hf) rfl
  · exact leaves_sameFlags rfl

theorem execArmLoaded_flags (arm : Arm) : Leaves (FlagsStay s) (execArmLoaded st arm s) :=
  onGrant_flags st (raiseStand_keeps (setLoaded_keeps (.refl s)))

theorem execArmEmptied_flags (arm : Arm) : Leaves (FlagsStay s) (execArmEmptied st arm s) :=
  onGrant_flags st (raiseStand_keeps (armReportedEmpty_keeps (.refl s)))

theorem execQueryArm_flags (x : Option Arm) : Leaves (FlagsStay s) (execQueryArm st x s) :=
  onGrant_flags st (setBus_keeps (.refl s) ⟨rfl, rfl, rfl, rfl⟩ id)

end Events

/-! ## Every command -/

/-- Settles O10: no operation of `Keeps` clears a flag, and what a command changes besides leaves the flags alone. -/
theorem flagsStaySet : Obligations.FlagsStaySet := by
  intro c s t hack hrestart hpower h
  suffices Leaves (FlagsStay s) (exec c s) from this t h
  clear h
  cases c with
  | powerOnReset a => exact absurd rfl (hpower a)
  | ackChanges a p => exact absurd rfl (hack a p)
  | restart a p => exact absurd rfl (hrestart a p)
  | resetRelease => exact execResetRelease_flags
  | encoderPulse l => exact leaves_arbitratedFlags (reportLine_keeps (.refl (setLine s l _))) rfl
  | speedWindowEnd l => exact execSpeedWindowEnd_flags l
  | commitPointReport r => exact leaves_arbitratedFlags (reportCommitPoint_keeps (.refl s)) rfl
  | latestCommitPointReport r => exact leaves_arbitratedFlags (reportLatest_keeps (.refl s)) rfl
  | matchDeadlineReport st => exact leaves_arbitratedFlags (reportDeadline_keeps (.refl s)) rfl
  | pastePositionReport st => exact leaves_arbitratedFlags (reportPaste_keeps (.refl s)) rfl
  | knifePositionReport st => exact leaves_arbitratedFlags (reportKnife_keeps (.refl s)) rfl
  | staleLimitReached st arm => exact leaves_keptFlags (reportStale_keeps (.refl s)) rfl
  | pulseEnd st o => exact execPulseEnd_flags st o
  | revolutionMark st arm => exact execRevolutionMark_flags st arm
  | tapeMark st => exact execTapeMark_flags st
  | scanCall => exact execScanCall_flags
  | quietTimer => exact execQuietTimer_flags
  | scanEnd slots => exact execScanEnd_flags slots
  | stopHoldTimerEnd st => exact execStopHoldTimerEnd_flags st
  | accept st k arm => exact execAccept_flags st k arm
  | refuse st k arm why => exact execRefuse_flags st k arm why
  | replyTimeEnd => exact execReplyTimeEnd_flags
  | grantLapse => exact execGrantLapse_flags
  | readLimit st k => exact execReadLimit_flags st k
  | indexTimeout st => exact execIndexTimeout_flags st
  | verifyTimeout st => exact execVerifyTimeout_flags st
  | cutWaitEnd st => exact execCutWaitEnd_flags st
  | retractTimeout st => exact execRetractTimeout_flags st
  | response st b => exact onGrant_flags st (takeResponse_keeps (.refl s))
  | indexDone st x y z =>
    exact onGrant_flags st (ite_keeps (takeIndexDone_keeps (setIndexRecord_keeps (.refl s))) (.refl s))
  | verifyDone st arm => exact onGrant_flags st (takeVerifyDone_keeps (.refl s))
  | armHome st => exact onGrant_flags st (ite_keeps (endRetract_keeps (.refl s)) (.refl s))
  | cutConfirmed st =>
    exact onGrant_flags st (ite_keeps (tryCloseDone_keeps (modSequencer_keeps (.refl s))) (.refl s))
  | armLoaded st arm => exact execArmLoaded_flags st arm
  | armEmptied st arm => exact execArmEmptied_flags st arm
  | queryArm st arm => exact execQueryArm_flags st arm
  | unroutedStandMessage st => exact onGrant_flags st (.refl s)
  | consoleFrameDiscarded p => exact leaves_sameFlags rfl
  | answerFrameSeen a code p => exact leaves_sameFlags rfl
  | answerSent => exact leaves_sameFlags rfl
  | unknownCode a code p => exact BodyKeepsFlags.answer (.of_lookup fun _ => rfl) _ a code s
  | enterReel a p => exact ((enterReelBody_flags p).withLength p _).answer _ a _ s
  | mountReel a p => exact ((mountReelBody_flags p).withLength p _).send _ a _ s
  | prepared a p => exact ((preparedBody_flags p).withLength p _).send _ a _ s
  | amendReel a p => exact ((amendReelBody_flags p).withLength p _).answer _ a _ s
  | retireReel a p => exact ((retireReelBody_flags p).withLength p _).answer _ a _ s
  | readReel a p => exact ((BodyKeepsFlags.of_lookup (readReelBody_state p)).withLength p _).answer _ a _ s
  | readArm a p => exact ((BodyKeepsFlags.of_lookup (readArmBody_state p)).withLength p _).answer _ a _ s
  | listReels a p => exact ((BodyKeepsFlags.of_lookup (listReelsBody_state p)).withLength p _).answer _ a _ s
  | threadReel a p => exact ((threadReelBody_flags p).withLength p _).answer _ a _ s
  | stopReel a p => exact ((stopReelBody_flags p).withLength p _).send _ a _ s
  | orderSplice a p => exact ((orderSpliceBody_flags p).withLength p _).send _ a _ s
  | confirm a p => exact ((confirmBody_flags p).withLength p _).send _ a _ s
  | cancelOrder a p => exact ((cancelOrderBody_flags p).withLength p _).send _ a _ s
  | releaseOrder a p => exact ((releaseOrderBody_flags p).withLength p _).answer _ a _ s
  | readOrder a p => exact ((BodyKeepsFlags.of_lookup (readOrderBody_state p)).withLength p _).answer _ a _ s
  | indexStand a p => exact ((indexStandBody_flags p).withLength p _).send _ a _ s
  | clearStand a p => exact ((clearStandBody_flags p).withLength p _).send _ a _ s
  | readStand a p => exact ((BodyKeepsFlags.of_lookup (readStandBody_state p)).withLength p _).answer _ a _ s
  | readLine a p => exact ((BodyKeepsFlags.of_lookup (readLineBody_state p)).withLength p _).answer _ a _ s
  | setParameter a p => exact ((setParameterBody_flags p).withLength p _).send _ a _ s
  | readParameter a p =>
    exact ((BodyKeepsFlags.of_lookup (readParameterBody_state p)).withLength p _).answer _ a _ s
  | parameterRun a p => exact ((parameterRunBody_flags p).withLength p _).answer _ a _ s
  | data a p => exact (dataBody_flags p).send _ a _ s
  | readChanges a p => exact (BodyKeepsFlags.withLength p (.of_lookup fun _ => rfl) _).answer _ a _ s
  | scanMode a p => exact ((scanModeBody_flags p).withLength p _).answer _ a _ s

end Sys2Proof.Machine
end

section
/-! The console frame and the frames that carry out no command (R178, R179), and the change flags read and
acknowledged (R184, R185). -/

namespace Sys2Proof.Machine

open Sys2Proof

/-! ## The console frame -/

section ConsoleFrame

variable {ad code : Byte} {p : List Byte}

/-- The four tests of R178: a frame is taken when its marker, its length byte, its byte count and its CRC are
right, with its address, its code and the payload that its length byte cuts off. -/
theorem parseConsole_eq (marker address code len : Byte) (rest : List Byte) :
    parseConsole (marker :: address :: code :: len :: rest) =
      if marker = 0xA5 ∧ len.toNat ≤ 58 ∧ rest.length = len.toNat + 2 ∧ rest.drop len.toNat =
          beBytes 2 (crc16 (address :: code :: len :: rest.take len.toNat)).toNat then
        some (address, code, rest.take len.toNat)
      else none := by
  simp only [parseConsole, Bool.and_eq_true, beq_iff_eq, decide_eq_true_eq, and_assoc]

theorem parseConsole_short {bytes : List Byte} (h : bytes.length < 4) : parseConsole bytes = none := by
  match bytes, h with
  | [], _ | [_], _ | [_, _], _ | [_, _, _], _ => rfl

/-- A frame formed of a payload of at most 58 bytes is taken, and its parts are those it was formed of. -/
theorem parseConsole_consoleFrame (hp : p.length ≤ 58) :
    parseConsole (consoleFrame ad code p) = some (ad, code, p) := by
  have len : (BitVec.ofNat 8 p.length).toNat = p.length := by
    rw [BitVec.toNat_ofNat]; omega
  simp only [consoleFrame, List.cons_append, parseConsole_eq, len]
  simp [hp]

/-- A code outside the command table is read as UNKNOWN_CODE (R179). -/
theorem commandOf_unknown (h : code ∉ commandCodes) : commandOf ad code p = .unknownCode ad code p := by
  have unlisted : ∀ n ∈ commandCodes.map BitVec.toNat, code.toNat ≠ n := by
    rintro n hn rfl
    obtain ⟨k, hk, e⟩ := List.mem_map.1 hn
    exact h (BitVec.eq_of_toNat_eq e ▸ hk)
  unfold commandOf
  split
  case h_28 => rfl
  all_goals exact absurd ‹_› (unlisted _ (by decide))

/-- The command of a frame's parts: an answer frame by bit 7 of its code, else the command of the code (R178). -/
theorem consoleCommandOf_consoleFrame (hp : p.length ≤ 58) :
    consoleCommandOf (consoleFrame ad code p) =
      if code.getLsbD 7 then .answerFrameSeen ad code p else commandOf ad code p := by
  rw [consoleCommandOf, parseConsole_consoleFrame hp]

/-- A sender forms a frame of at most 58 payload bytes (R178). -/
theorem payload_length_le {c : Instr} (hwf : c.wf = true) (hc : consoleParts c = some (ad, code, p)) :
    p.length ≤ 58 := by
  have bound (h : consoleWf ad p = true) : p.length ≤ 58 := by
    simp only [consoleWf, Bool.and_eq_true, decide_eq_true_eq] at h
    exact h.2
  cases c <;> simp only [consoleParts, reduceCtorEq] at hc <;> cases hc
  case answerFrameSeen =>
    simp only [Instr.wf, Bool.and_eq_true] at hwf
    exact bound hwf.1
  case unknownCode =>
    simp only [Instr.wf, Bool.and_eq_true] at hwf
    exact bound hwf.1.1
  all_goals exact bound hwf

/-- The parts of a command that a sender forms are read back as the command, by the bit of an answer frame and by
the table of codes (R178, R179, R181). -/
theorem command_of_parts {c : Instr} (hwf : c.wf = true) (hc : consoleParts c = some (ad, code, p)) :
    (if code.getLsbD 7 then .answerFrameSeen ad code p else commandOf ad code p) = c := by
  cases c <;> simp only [consoleParts, reduceCtorEq] at hc <;> cases hc
  case answerFrameSeen =>
    simp only [Instr.wf, Bool.and_eq_true] at hwf
    exact if_pos hwf.2
  case unknownCode =>
    simp only [Instr.wf, Bool.and_eq_true, Bool.not_eq_true', List.contains_eq_mem, decide_eq_false_iff_not] at hwf
    obtain ⟨⟨-, sent⟩, unlisted⟩ := hwf
    rw [sent, commandOf_unknown unlisted]
    rfl
  all_goals rfl

end ConsoleFrame

/-- Settles O4: the frame gives its parts back, and the parts give the command back. -/
theorem consoleFramesDecode : Obligations.ConsoleFramesDecode := by
  intro c bytes hwf hf
  obtain ⟨⟨ad, code, p⟩, hc, rfl⟩ := Option.map_eq_some_iff.1 hf
  rw [consoleCommandOf_consoleFrame (payload_length_le hwf hc), command_of_parts hwf hc]

/-- Settles O6: a frame is discarded when one of the four tests fails. -/
theorem discardedFrames : Obligations.DiscardedFrames := by
  refine ⟨fun bytes => parseConsole_short, fun marker address code len rest => ?_⟩
  rw [parseConsole_eq, ite_eq_right_iff]
  simp only [reduceCtorEq, imp_false, not_and_or, not_le, ne_eq]

/-- Settles O46: the first two change nothing, the third reaches a body that only answers, and the fourth removes the
answer alone. -/
theorem untakenFrames : Obligations.UntakenFrames := by
  refine fun s => ⟨fun _ => rfl, fun _ _ _ => rfl, fun ad code p h => ?_, rfl⟩
  change answerCommand .plain ad code (reply .unknownCode) s = _
  rw [answerCommand, takeCommand_addressed h]
  rfl

/-! ## The four bytes of the change flags (R184, R185) -/

section FlagBytes

variable {s : State} {ad : Byte}

/-- Bit k of a byte of the flags is the flag that stands k above the byte's first. -/
theorem flagByte_bit (f : BitVec 28) (n : Nat) {k : Nat} (hk : k < 8) :
    ((f >>> n).setWidth 8).getLsbD k = f.getLsbD (n + k) := by
  simp [hk]

/-- The layout of READ CHANGES: stands, rows 0 to 7, rows 8 to 15 and lines, and bits 4 to 7 of the last byte 0. -/
structure FlagLayout (t : State) (b0 b1 b2 b3 : Byte) : Prop where
  stands : ∀ k, k < 8 → b0.getLsbD k = flagSet t k
  lowRows : ∀ k, k < 8 → b1.getLsbD k = flagSet t (8 + k)
  highRows : ∀ k, k < 8 → b2.getLsbD k = flagSet t (16 + k)
  lines : ∀ k, k < 4 → b3.getLsbD k = flagSet t (24 + k)
  unused : ∀ k, 4 ≤ k → b3.getLsbD k = false

/-- The flag bytes of a state have the layout of READ CHANGES. -/
theorem flagItems_layout (t : State) :
    ∃ b0 b1 b2 b3, flagItems t.port.flags = [b0, b1, b2, b3] ∧ FlagLayout t b0 b1 b2 b3 := by
  refine ⟨_, _, _, _, rfl, fun k hk => ?_, fun k hk => flagByte_bit _ 8 hk, fun k hk => flagByte_bit _ 16 hk,
    fun k hk => flagByte_bit _ 24 (by omega), fun k hk => ?_⟩
  · simp [flagSet, hk]
  · by_cases h8 : k < 8
    · rw [flagByte_bit _ 24 h8]
      exact BitVec.getLsbD_of_ge _ _ (by omega)
    · exact BitVec.getLsbD_of_ge _ _ (by omega)

/-- READ CHANGES changes nothing and answers with the flag bytes (R184). -/
theorem exec_readChanges (h : Addressed s ad) :
    exec (.readChanges ad []) s = .next { s with port := answering s.port 0x40 .ok (flagItems s.port.flags) } :=
  answerCommand_lookup h rfl (body := readChangesBody) rfl

end FlagBytes

/-- Settles O58: the answer's items are the flag bytes of the state, in the layout of READ CHANGES. -/
theorem readChanges : Obligations.ReadChanges := by
  intro ad s h
  obtain ⟨b0, b1, b2, b3, items, stands, lowRows, highRows, lines, unused⟩ := flagItems_layout s
  refine ⟨b0, b1, b2, b3, ?_, stands, lowRows, highRows, lines, unused⟩
  rw [← items]
  exact exec_readChanges h

section Acknowledge

variable {s : State} {ad m0 m1 m2 m3 : Byte} {p : List Byte}

/-- A byte set above the bits of a value. -/
theorem toNat_byte_append {n : Nat} (x : Byte) (y : BitVec n) : (x ++ y).toNat = x.toNat * 2 ^ n + y.toNat := by
  rw [BitVec.toNat_append, ← Nat.shiftLeft_add_eq_or_of_lt y.isLt, Nat.shiftLeft_eq]

/-- The mask of four bytes, byte 0 lowest; bits 4 to 7 of byte 3 fall away (R185). -/
theorem maskOf_bytes (m0 m1 m2 m3 : Byte) :
    maskOf [m0, m1, m2, m3] = (m3 ++ (m2 ++ (m1 ++ m0))).setWidth 28 := by
  apply BitVec.eq_of_toNat_eq
  simp only [maskOf, item, ofBytes, List.drop, List.take, List.foldl, BitVec.toNat_ofNat, BitVec.toNat_setWidth,
    toNat_byte_append]
  omega

/-- Bit k of mask byte n names the flag 8 × n + k, but for bits 4 to 7 of byte 3 (R185). -/
theorem maskOf_bit (k : Nat) :
    (k < 8 → (maskOf [m0, m1, m2, m3]).getLsbD k = m0.getLsbD k) ∧
    (k < 8 → (maskOf [m0, m1, m2, m3]).getLsbD (8 + k) = m1.getLsbD k) ∧
    (k < 8 → (maskOf [m0, m1, m2, m3]).getLsbD (16 + k) = m2.getLsbD k) ∧
    (k < 4 → (maskOf [m0, m1, m2, m3]).getLsbD (24 + k) = m3.getLsbD k) := by
  rw [maskOf_bytes]
  simp only [BitVec.getLsbD_setWidth, BitVec.getLsbD_append]
  refine ⟨fun hk => ?_, fun hk => ?_, fun hk => ?_, fun hk => ?_⟩
  · have first : k < 28 ∧ k < 24 ∧ k < 16 := by omega
    simp [hk, first]
  · have second : 8 + k < 28 ∧ 8 + k < 24 ∧ 8 + k < 16 := by omega
    simp [second]
  · have third : 16 + k < 28 ∧ 16 + k < 24 ∧ 16 + k - 16 = k ∧ 16 + k - 8 = 8 + k := by omega
    simp [third]
  · have last : 24 + k < 28 ∧ 24 + k - 24 = k := by omega
    simp [last]

theorem flagSet_clearFlags (mask : BitVec 28) (s : State) {n : Nat} (hn : n < 28) :
    flagSet (clearFlags mask s) n = (flagSet s n && !mask.getLsbD n) := by
  simp [flagSet, clearFlags, setPort, hn]

/-- The state that ACK CHANGES leaves: the masked flags cleared, and the rest answered (R185). -/
def acknowledged (p : List Byte) (s : State) : State :=
  let cleared := clearFlags (maskOf p) s
  { s with port := answering cleared.port 0x41 .ok (flagItems cleared.port.flags) }

theorem exec_ackChanges (h : Addressed s ad) (hp : p.length = 4) :
    exec (.ackChanges ad p) s = .next (acknowledged p s) :=
  answerCommand_answers h hp (body := ackChangesBody p) rfl rfl

end Acknowledge

/-- Settles O59: a masked flag is cleared and the others stay, and the items answered are the flag bytes of the state
left. -/
theorem ackChanges : Obligations.AckChanges := by
  intro ad s m0 m1 m2 m3 h
  obtain ⟨b0, b1, b2, b3, items, stands, lowRows, highRows, lines, unused⟩ :=
    flagItems_layout (acknowledged [m0, m1, m2, m3] s)
  have flag {n : Nat} (hn : n < 28) : flagSet (acknowledged [m0, m1, m2, m3] s) n =
      (flagSet s n && !(maskOf [m0, m1, m2, m3]).getLsbD n) := flagSet_clearFlags _ s hn
  have bit (k : Nat) := maskOf_bit (m0 := m0) (m1 := m1) (m2 := m2) (m3 := m3) k
  refine ⟨acknowledged [m0, m1, m2, m3] s, b0, b1, b2, b3, exec_ackChanges h rfl, fun k hk => ?_, fun k hk => ?_,
    fun k hk => ?_, fun k hk => ?_, ?_, rfl, rfl, ?_, stands, lowRows, highRows, lines, unused⟩
  · rw [flag (by omega), (bit k).1 hk]
  · rw [flag (by omega), (bit k).2.1 hk]
  · rw [flag (by omega), (bit k).2.2.1 hk]
  · rw [flag (by omega), (bit k).2.2.2 hk]
  · rw [← items]
    rfl
  · intro b hb
    cases b
    case port => simp at hb
    all_goals rfl

end Sys2Proof.Machine
end

section
/-! The queue of commands: every command completes and leaves the queue as it was, and a step takes the command at its
front, or on an empty queue what the part has due. -/

namespace Sys2Proof.Machine

open Sys2Proof

/-- A next state is answered, with the queue of the state before. -/
def Completes (s : State) (x : Result) : Prop := ∃ t, x = .next t ∧ t.pending = s.pending

section Complete

variable {s t u : State}

theorem completes_next (h : t.pending = s.pending) : Completes s (.next t) := ⟨t, rfl, h⟩

/-- A change that leaves the queue, and then operations that keep it. -/
theorem Keeps.completes (k : Keeps u t) (h : u.pending = s.pending) : Completes s (.next t) :=
  completes_next (k.pending.trans h)

/-- The same with the arbiter's choice at the end. -/
theorem Keeps.sends (k : Keeps u t) (h : u.pending = s.pending) : Completes s (.next (arbitrate t)) :=
  (arbitrate_keeps k).completes h

end Complete

/-! ## Console commands -/

section Console

/-- A command's body leaves the queue. -/
def BodyKeepsQueue (body : State → State × Reply) : Prop := ∀ u, (body u).1.pending = u.pending

variable {body : State → State × Reply} (p : List Byte)

theorem BodyKeepsQueue.of_lookup (h : ∀ u, (body u).1 = u) : BodyKeepsQueue body := fun u => by rw [h]

theorem BodyKeepsQueue.withLength (hb : BodyKeepsQueue body) (n : Nat) : BodyKeepsQueue (withLength n p body) := by
  intro u
  unfold Machine.withLength
  split
  · exact hb u
  · rfl

/-- The port ends the run and sends the answer, which are no part of the queue (R176, R178). -/
theorem BodyKeepsQueue.takeCommand (hb : BodyKeepsQueue body) (k : FrameClass) (a c : Byte) (s : State) :
    (takeCommand k a c body s).pending = s.pending := by
  have run : (runAfter k s).pending = s.pending := by cases k <;> rfl
  have carried : (body (runAfter k s)).1.pending = s.pending := (hb _).trans run
  unfold Machine.takeCommand
  split
  · rfl
  · split
    · split
      · rfl
      · exact carried
    · split
      · exact carried
      · exact run

theorem BodyKeepsQueue.answer (hb : BodyKeepsQueue body) (k : FrameClass) (a c : Byte) (s : State) :
    Completes s (answerCommand k a c body s) := completes_next (hb.takeCommand k a c s)

theorem BodyKeepsQueue.send (hb : BodyKeepsQueue body) (k : FrameClass) (a c : Byte) (s : State) :
    Completes s (answerAndSend k a c body s) := (Keeps.refl _).sends (hb.takeCommand k a c s)

/-! ### Reels -/

theorem enterReelBody_queue : BodyKeepsQueue (enterReelBody p) := fun u => by
  rcases enterReelBody_cases p u with e | ⟨i, x, -, -, e⟩ <;> rw [e]
  rfl

theorem mountReelBody_queue : BodyKeepsQueue (mountReelBody p) := fun u => by
  unfold mountReelBody
  (repeat' split) <;> rfl

theorem declare_queue (r : ReelRecord) (u : State) : (declare r u).pending = u.pending :=
  (declare_keeps (.refl u)).pending

theorem preparedBody_queue : BodyKeepsQueue (preparedBody p) := fun u => by
  unfold preparedBody
  (repeat' split) <;> try rfl
  exact declare_queue ..

theorem amendReelBody_queue : BodyKeepsQueue (amendReelBody p) := fun u => by
  rcases amendReelBody_cases p u with e | ⟨i, r, y, -, -, e⟩ <;> rw [e]
  rfl

theorem retireReelBody_queue : BodyKeepsQueue (retireReelBody p) := fun u => by
  unfold retireReelBody
  (repeat' split) <;> rfl

theorem threadReelBody_queue : BodyKeepsQueue (threadReelBody p) := fun u => by
  unfold threadReelBody
  (repeat' split) <;> rfl

theorem stopReelBody_queue : BodyKeepsQueue (stopReelBody p) := by
  intro u
  unfold stopReelBody
  dsimp only
  (repeat' split) <;> try rfl
  exact (cancelStopped_keeps (stopTracker_keeps (.refl (setReel u _ _)))).pending

/-! ### Orders -/

theorem orderSpliceBody_queue : BodyKeepsQueue (orderSpliceBody p) := fun u => by
  rcases orderSpliceBody_cases p u with e | ⟨i, row, -, -, -, e⟩ <;> rw [e]
  exact (createOrder_keeps i row u).pending

theorem withOrder_queue {f : RowId → OrderRow → State → State × Reply}
    (hf : ∀ i row, BodyKeepsQueue (f i row)) : BodyKeepsQueue (withOrder p f) := by
  intro u
  unfold withOrder
  dsimp only
  (repeat' split) <;> try rfl
  exact hf _ _ u

theorem testOrder_queue (i : RowId) (u : State) : (testOrder i u).pending = u.pending :=
  (testOrder_keeps (.refl u)).pending

theorem raiseRow_queue (i : RowId) (st : StandId) (u : State) : (raiseRow i st u).pending = u.pending :=
  (raiseRow_keeps (.refl u)).pending

theorem confirmBody_queue : BodyKeepsQueue (confirmBody p) := by
  refine withOrder_queue p fun i row u => ?_
  unfold confirmRow
  split
  case h_2 =>
    refine (testOrder_queue _ _).trans ?_
    exact raiseRow_queue ..
  all_goals rfl

theorem cancelOrderBody_queue : BodyKeepsQueue (cancelOrderBody p) := by
  refine withOrder_queue p fun i row u => ?_
  unfold cancelRow
  split
  case h_1 | h_2 | h_3 | h_4 => exact (closeOrder_keeps (.refl u)).pending
  all_goals rfl

theorem releaseOrderBody_queue : BodyKeepsQueue (releaseOrderBody p) := fun u => by
  rcases releaseOrderBody_cases p u with e | ⟨i, st, e⟩ <;> rw [e]
  exact raiseRow_queue ..

/-! ### Stands -/

theorem indexStandBody_queue : BodyKeepsQueue (indexStandBody p) := fun u => by
  unfold indexStandBody
  (repeat' split) <;> rfl

theorem settleCondition_queue (st : StandId) (u : State) : (settleCondition st u).pending = u.pending := by
  unfold settleCondition
  dsimp only
  split
  · exact (raiseStand_keeps (.refl (queueRequest st _ (modStand st _ u)))).pending
  · split
    case h_1 => rfl
    case h_2 => exact (faultOrder_keeps (raiseStand_keeps (.refl (modStand st _ u)))).pending
    all_goals exact (raiseStand_keeps (.refl (modStand st _ u))).pending

theorem clearStandBody_queue : BodyKeepsQueue (clearStandBody p) := fun u => by
  unfold clearStandBody
  split
  · rfl
  · split
    · rfl
    · exact settleCondition_queue _ (clearContexts _ u)

/-! ### Parameters, scan mode and restart -/

theorem writeStand_queue (st : StandId) (i : Fin 14) (v : Nat) (u : State) :
    (writeStand st i v u).1.pending = u.pending := by
  unfold writeStand
  dsimp only
  (repeat' split) <;> rfl

theorem writeLine_queue (l : LineId) (i : Fin 4) (v : Nat) (u : State) :
    (writeLine l i v u).pending = u.pending :=
  (ite_keeps (evaluate_keeps (.refl _)) (.refl _) :
    Keeps (storeLine l i (clampTo (vget lineSpecs i) v) u) (writeLine l i v u)).pending

theorem writeParam_queue (x : Target) (i v : Nat) (u : State) : (writeParam x i v u).1.pending = u.pending := by
  unfold writeParam
  split <;> split
  · exact writeStand_queue ..
  · rfl
  · exact writeLine_queue ..
  · rfl

theorem writeRun_queue (x : Target) (i : Nat) (vs : List Nat) (u : State) :
    (writeRun x i vs u).1.pending = u.pending := by
  induction vs generalizing i u with
  | nil => rfl
  | cons v vs ih => exact (ih (i + 1) _).trans (writeParam_queue x i v u)

theorem setParameterBody_queue : BodyKeepsQueue (setParameterBody p) := fun u => by
  unfold setParameterBody
  split
  · rfl
  · exact writeParam_queue ..

theorem parameterRunBody_queue : BodyKeepsQueue (parameterRunBody p) := fun u => by
  unfold parameterRunBody
  split <;> rfl

theorem dataBody_queue : BodyKeepsQueue (dataBody p) := fun u => by
  unfold dataBody
  split
  · rfl
  · split
    · rfl
    · exact writeRun_queue ..

theorem scanModeBody_queue : BodyKeepsQueue (scanModeBody p) := fun u => by
  unfold scanModeBody takeScanMode
  dsimp only
  (repeat' split) <;> rfl

theorem restartBody_queue : BodyKeepsQueue restartBody := fun u => by
  unfold restartBody
  split <;> rfl

end Console

/-! ## Events -/

section Events

variable {s : State} (st : StandId) (arm : Arm)

theorem execResetRelease_completes : Completes s (execResetRelease s) := by
  unfold execResetRelease
  split <;> exact completes_next rfl

theorem execSpeedWindowEnd_completes (l : LineId) : Completes s (execSpeedWindowEnd l s) := by
  have window : (windowState l s).pending = s.pending := windowState_onlyIn l s .pending (by simp)
  rw [show execSpeedWindowEnd l s = .next (arbitrate (windowEnded l s)) from exec_speedWindowEnd l s]
  exact (windowEnded_keeps l s).completes window

theorem execPulseEnd_completes (o : OutputLine) : Completes s (execPulseEnd st o s) := by
  unfold execPulseEnd
  split <;> exact completes_next rfl

theorem execRevolutionMark_completes : Completes s (execRevolutionMark st arm s) := by
  obtain ⟨t, ht, hcase⟩ := exec_revolutionMark st arm s
  have kept : Keeps s (verifyMark st arm (closedTapes s st arm) (markDelivered st arm s)) :=
    verifyMark_keeps (markDelivered_keeps st arm s)
  rw [show execRevolutionMark st arm s = .next t from ht]
  rcases hcase with ⟨rfl, -⟩ | rfl
  · exact kept.completes rfl
  · exact kept.sends rfl

theorem execTapeMark_completes : Completes s (execTapeMark st s) := by
  unfold execTapeMark
  split
  · exact completes_next rfl
  · exact (sequencerTape_keeps (.refl (setArmContext s st _ _))).sends rfl

theorem execScanCall_completes : Completes s (execScanCall s) := by
  unfold execScanCall
  split <;> exact completes_next rfl

theorem execQuietTimer_completes : Completes s (execQuietTimer s) := by
  unfold execQuietTimer
  split <;> exact completes_next rfl

theorem execScanEnd_completes (slots : Vector Byte 8) : Completes s (execScanEnd slots s) := by
  unfold execScanEnd
  split
  · exact (handReadings_keeps (.refl (endScan slots s))).sends rfl
  · exact completes_next rfl

theorem execStopHoldTimerEnd_completes : Completes s (execStopHoldTimerEnd st s) := by
  unfold execStopHoldTimerEnd
  dsimp only
  split
  · exact completes_next rfl
  · next e _ =>
    split
    · next ho => exact (leaveService_keeps (.refl (reachTime e s)) (eq_of_beq ho) (by decide)).sends rfl
    · exact completes_next rfl

theorem execAccept_completes (k : RequestKind) (x : Option Arm) : Completes s (execAccept st k x s) := by
  unfold execAccept
  split
  · exact completes_next rfl
  · exact (ite_keeps (.refl (freePair s)) (acceptRequest_keeps (.refl _))).sends rfl

theorem execRefuse_completes (k : RequestKind) (x : Option Arm) (why : StandReason) :
    Completes s (execRefuse st k x why s) := by
  unfold execRefuse
  split
  · exact completes_next rfl
  · exact (ite_keeps (.refl (freePair s)) (refuseRequest_keeps (writeRefusal_keeps (.refl _)))).sends rfl

theorem execReplyTimeEnd_completes : Completes s (execReplyTimeEnd s) := by
  unfold execReplyTimeEnd
  split
  · exact (takeHardError_keeps (.refl (freePair (reachTime _ s)))).sends rfl
  · exact completes_next rfl

theorem execGrantLapse_completes : Completes s (execGrantLapse s) := by
  unfold execGrantLapse
  split
  · next lim _ =>
    have freed : Keeps (reachTime lim s) (freePair (reachTime lim s)) := freePair_keeps (.refl _)
    exact (ite_keeps (setLapses_keeps freed) (takeHardError_keeps (setLapses_keeps freed))).sends rfl
  · exact completes_next rfl

theorem execReadLimit_completes (k : ReadKind) : Completes s (execReadLimit st k s) := by
  unfold execReadLimit
  split
  · exact completes_next rfl
  · cases k <;> exact (writeOutcome_keeps (.refl (closeRead st _ (reachTime _ s)))).completes rfl

theorem execIndexTimeout_completes : Completes s (execIndexTimeout st s) := by
  unfold execIndexTimeout
  split
  · exact completes_next rfl
  · exact (takeHardError_keeps (writeOutcome_keeps (.refl (setIndexRecord st none (reachTime _ s))))).sends rfl

theorem execVerifyTimeout_completes : Completes s (execVerifyTimeout st s) := by
  unfold execVerifyTimeout
  split
  · exact completes_next rfl
  · split
    · exact completes_next rfl
    · exact (ite_keeps (repeatRun_keeps (.refl (reachTime _ s))) (finishRun_keeps (.refl _))).sends rfl

theorem execCutWaitEnd_completes : Completes s (execCutWaitEnd st s) := by
  unfold execCutWaitEnd
  split
  · exact completes_next rfl
  · exact (tryCloseDone_keeps (modSequencer_keeps (.refl (reachTime _ s)))).sends rfl

theorem execRetractTimeout_completes : Completes s (execRetractTimeout st s) := by
  unfold execRetractTimeout
  split
  · exact completes_next rfl
  · exact (endRetractWait_keeps (.refl (reachTime _ s))).sends rfl

/-- A message on a grant leaves the queue when what it hands on does (R147). -/
theorem onGrant_completes {f : State → State} (hf : Keeps s (f s)) : Completes s (onGrant st f s) := by
  unfold onGrant
  split
  · exact (endGrant_keeps hf).sends rfl
  · exact completes_next rfl

theorem execIndexDone_completes (x y z : SpiderPos) : Completes s (execIndexDone st x y z s) :=
  onGrant_completes st (ite_keeps (takeIndexDone_keeps (setIndexRecord_keeps (.refl s))) (.refl s))

theorem execArmHome_completes : Completes s (execArmHome st s) :=
  onGrant_completes st (ite_keeps (endRetract_keeps (.refl s)) (.refl s))

theorem execCutConfirmed_completes : Completes s (execCutConfirmed st s) :=
  onGrant_completes st (ite_keeps (tryCloseDone_keeps (modSequencer_keeps (.refl s))) (.refl s))

theorem execArmLoaded_completes : Completes s (execArmLoaded st arm s) :=
  onGrant_completes st (raiseStand_keeps (setLoaded_keeps (.refl s)))

theorem execArmEmptied_completes : Completes s (execArmEmptied st arm s) :=
  onGrant_completes st (raiseStand_keeps (armReportedEmpty_keeps (.refl s)))

theorem execQueryArm_completes (x : Option Arm) : Completes s (execQueryArm st x s) :=
  onGrant_completes st (setBus_keeps (.refl s) ⟨rfl, rfl, rfl, rfl⟩ id)

end Events

/-! ## Every command and every step -/

theorem exec_completes (c : Instr) (s : State) : Completes s (exec c s) := by
  cases c with
  | powerOnReset a => exact completes_next rfl
  | resetRelease => exact execResetRelease_completes
  | encoderPulse l => exact (reportLine_keeps (.refl (setLine s l _))).sends rfl
  | speedWindowEnd l => exact execSpeedWindowEnd_completes l
  | commitPointReport r => exact (reportCommitPoint_keeps (.refl s)).sends rfl
  | latestCommitPointReport r => exact (reportLatest_keeps (.refl s)).sends rfl
  | matchDeadlineReport st => exact (reportDeadline_keeps (.refl s)).sends rfl
  | pastePositionReport st => exact (reportPaste_keeps (.refl s)).sends rfl
  | knifePositionReport st => exact (reportKnife_keeps (.refl s)).sends rfl
  | staleLimitReached st arm => exact (reportStale_keeps (.refl s)).completes rfl
  | pulseEnd st o => exact execPulseEnd_completes st o
  | revolutionMark st arm => exact execRevolutionMark_completes st arm
  | tapeMark st => exact execTapeMark_completes st
  | scanCall => exact execScanCall_completes
  | quietTimer => exact execQuietTimer_completes
  | scanEnd slots => exact execScanEnd_completes slots
  | stopHoldTimerEnd st => exact execStopHoldTimerEnd_completes st
  | accept st k arm => exact execAccept_completes st k arm
  | refuse st k arm why => exact execRefuse_completes st k arm why
  | replyTimeEnd => exact execReplyTimeEnd_completes
  | grantLapse => exact execGrantLapse_completes
  | readLimit st k => exact execReadLimit_completes st k
  | indexTimeout st => exact execIndexTimeout_completes st
  | verifyTimeout st => exact execVerifyTimeout_completes st
  | cutWaitEnd st => exact execCutWaitEnd_completes st
  | retractTimeout st => exact execRetractTimeout_completes st
  | response st b => exact onGrant_completes st (takeResponse_keeps (.refl s))
  | indexDone st x y z => exact execIndexDone_completes st x y z
  | verifyDone st arm => exact onGrant_completes st (takeVerifyDone_keeps (.refl s))
  | armHome st => exact execArmHome_completes st
  | cutConfirmed st => exact execCutConfirmed_completes st
  | armLoaded st arm => exact execArmLoaded_completes st arm
  | armEmptied st arm => exact execArmEmptied_completes st arm
  | queryArm st arm => exact execQueryArm_completes st arm
  | unroutedStandMessage st => exact onGrant_completes st (.refl s)
  | consoleFrameDiscarded p => exact completes_next rfl
  | answerFrameSeen a code p => exact completes_next rfl
  | answerSent => exact completes_next rfl
  | unknownCode a code p => exact BodyKeepsQueue.answer (.of_lookup fun _ => rfl) _ a code s
  | enterReel a p => exact ((enterReelBody_queue p).withLength p _).answer _ a _ s
  | mountReel a p => exact ((mountReelBody_queue p).withLength p _).send _ a _ s
  | prepared a p => exact ((preparedBody_queue p).withLength p _).send _ a _ s
  | amendReel a p => exact ((amendReelBody_queue p).withLength p _).answer _ a _ s
  | retireReel a p => exact ((retireReelBody_queue p).withLength p _).answer _ a _ s
  | readReel a p => exact ((BodyKeepsQueue.of_lookup (readReelBody_state p)).withLength p _).answer _ a _ s
  | readArm a p => exact ((BodyKeepsQueue.of_lookup (readArmBody_state p)).withLength p _).answer _ a _ s
  | listReels a p => exact ((BodyKeepsQueue.of_lookup (listReelsBody_state p)).withLength p _).answer _ a _ s
  | threadReel a p => exact ((threadReelBody_queue p).withLength p _).answer _ a _ s
  | stopReel a p => exact ((stopReelBody_queue p).withLength p _).send _ a _ s
  | orderSplice a p => exact ((orderSpliceBody_queue p).withLength p _).send _ a _ s
  | confirm a p => exact ((confirmBody_queue p).withLength p _).send _ a _ s
  | cancelOrder a p => exact ((cancelOrderBody_queue p).withLength p _).send _ a _ s
  | releaseOrder a p => exact ((releaseOrderBody_queue p).withLength p _).answer _ a _ s
  | readOrder a p => exact ((BodyKeepsQueue.of_lookup (readOrderBody_state p)).withLength p _).answer _ a _ s
  | indexStand a p => exact ((indexStandBody_queue p).withLength p _).send _ a _ s
  | clearStand a p => exact ((clearStandBody_queue p).withLength p _).send _ a _ s
  | readStand a p => exact ((BodyKeepsQueue.of_lookup (readStandBody_state p)).withLength p _).answer _ a _ s
  | readLine a p => exact ((BodyKeepsQueue.of_lookup (readLineBody_state p)).withLength p _).answer _ a _ s
  | setParameter a p => exact ((setParameterBody_queue p).withLength p _).send _ a _ s
  | readParameter a p =>
    exact ((BodyKeepsQueue.of_lookup (readParameterBody_state p)).withLength p _).answer _ a _ s
  | parameterRun a p => exact ((parameterRunBody_queue p).withLength p _).answer _ a _ s
  | data a p => exact (dataBody_queue p).send _ a _ s
  | readChanges a p => exact (BodyKeepsQueue.withLength p (.of_lookup fun _ => rfl) _).answer _ a _ s
  | ackChanges a p => exact (BodyKeepsQueue.withLength p (body := ackChangesBody p) (fun _ => rfl) _).answer _ a _ s
  | scanMode a p => exact ((scanModeBody_queue p).withLength p _).answer _ a _ s
  | restart a p => exact (restartBody_queue.withLength p _).answer _ a _ s

/-- Settles O3: the queue is read by an encoder pulse and carried over by power-on reset, and no operation of any
command writes it. -/
theorem everyCommandCompletes : Obligations.EveryCommandCompletes := exec_completes

theorem step_cons {c : Instr} {rest : List Instr} {s : State} (h : s.pending = c :: rest) :
    step s = exec c { s with pending := rest } := by
  unfold step
  rw [h]

theorem step_nil {s : State} (h : s.pending = []) : step s = idle s := by
  unfold step
  rw [h]

theorem idle_due {s : State} {c : Instr} (h : dueCommand s = some c) : idle s = exec c s := by
  unfold idle
  rw [h]

theorem idle_quiet {s : State} (h : dueCommand s = none) : idle s = .next { s with now := s.now + 1 } := by
  unfold idle
  rw [h]
  rfl

/-- Settles O1: the branch of the step for a queue with a command at its front. -/
theorem stepRunsFrontCommand : Obligations.StepRunsFrontCommand := fun _ _ _ => step_cons

/-- Settles O2: on an empty queue the step is the part's own, a due command or the clock's next millisecond. -/
theorem emptyQueueStep : Obligations.EmptyQueueStep := fun _ hs =>
  ⟨fun _ hc => (step_nil hs).trans (idle_due hc), fun hn => (step_nil hs).trans (idle_quiet hn)⟩

end Sys2Proof.Machine
end
